-- ==== Sys2Proof/Word.lean ====
section
/-! DEFINITION. The word types of the block (spec/00_scope.md R9): a 32-bit bus word and a 128-bit value. -/

namespace Sys2Proof

/-- A bus word, `WORD_W` = 32 bits (R9). -/
abbrev Word32 := BitVec 32

/-- A packed value, `VALUE_W` = 128 bits: operands A, B and results R, X (R9, R20). -/
abbrev Value := BitVec 128

end Sys2Proof
end

