-- ==== Sys2Proof/Syntax.lean ====
section
/-! DEFINITION. The 36 commands of R66 (spec/30_encoding.md), in the opcode table's order. A constructor carries
exactly the bits of the command word its command reads: V for SETSIGN, SETBIT and PACK, ND for the status group
(R69, R185). Written commands (R71) and pseudo-instructions (R72) stand below them. -/

namespace Sys2Proof

/-- The commands. Operands A and B are not in the command word (R70): a command reads the latched copies (R30). -/
inductive Instr where
  | zero
  | getsign
  | setsign (v : Bool)
  | getscale
  | setscale
  | getbit
  | setbit (v : Bool)
  | shl
  | shr
  | pack (v : Bool)
  | iszero
  | mcmp
  | madd
  | msub
  | mmul
  | mdiv
  | mul10
  | div10
  | cmpabs
  | norm
  | cmp
  | lt
  | le
  | gt
  | ge
  | eq
  | ne
  | add (nd : Bool)
  | sub (nd : Bool)
  | mul (nd : Bool)
  | div (nd : Bool)
  | neg (nd : Bool)
  | brnd (nd : Bool)
  | round (nd : Bool)
  | floor (nd : Bool)
  | trunc (nd : Bool)
deriving DecidableEq, Repr

/-- A written command, `MNEMONIC[.nd] [v]` (R71). The mnemonic is given by its operation code (R66); whether V and
ND may stand is checked in WellFormed.lean. -/
structure Command where
  opc : BitVec 6
  nd  : Bool
  v   : Option Bool
deriving DecidableEq, Repr

/-- The pseudo-instructions of R72. -/
inductive Pseudo where
  | abs
  | setneg
  | clrbit
  | setbit1
  | mkdec (v : Bool)
deriving DecidableEq, Repr

/-- What a pseudo-instruction expands to (R72). -/
def Pseudo.expand : Pseudo → Instr
  | .abs     => .setsign false
  | .setneg  => .setsign true
  | .clrbit  => .setbit false
  | .setbit1 => .setbit true
  | .mkdec v => .pack v

end Sys2Proof
end

