-- ==== Sys2Proof/WellFormed.lean ====
section
/-! DEFINITION. Which written commands R71 (spec/30_encoding.md) admits: an assigned operation code; a value bit
exactly for SETSIGN, SETBIT and PACK; `.nd` only for the status group of R185 (spec/60_exceptions.md). -/

namespace Sys2Proof

/-- The operation code is one of R66's 36 (the gaps are listed in R67). -/
def opcAssigned (opc : BitVec 6) : Bool :=
  let n := opc.toNat
  decide (n ≤ 0x0A) || (decide (0x10 ≤ n) && decide (n ≤ 0x16)) || (decide (0x18 ≤ n) && decide (n ≤ 0x20)) ||
    (decide (0x28 ≤ n) && decide (n ≤ 0x2C)) || (decide (0x30 ≤ n) && decide (n ≤ 0x33))

/-- The command reads the value bit V: SETSIGN, SETBIT, PACK (R66, R67). -/
def opcUsesV (opc : BitVec 6) : Bool :=
  opc == 0x02#6 || opc == 0x06#6 || opc == 0x09#6

/-- The status group: ADD, SUB, MUL, DIV, NEG, BRND, ROUND, FLOOR, TRUNC (R185). -/
def opcStatusGroup (opc : BitVec 6) : Bool :=
  let n := opc.toNat
  (decide (0x28 ≤ n) && decide (n ≤ 0x2C)) || (decide (0x30 ≤ n) && decide (n ≤ 0x33))

/-- The written command is one R71 admits. -/
def Command.wellFormed (c : Command) : Bool :=
  opcAssigned c.opc && (c.v.isSome == opcUsesV c.opc) && (!c.nd || opcStatusGroup c.opc)

/-- The written form of a command (R66, R71). -/
def Instr.written : Instr → Command
  | .zero       => ⟨0x00#6, false, none⟩
  | .getsign    => ⟨0x01#6, false, none⟩
  | .setsign v  => ⟨0x02#6, false, some v⟩
  | .getscale   => ⟨0x03#6, false, none⟩
  | .setscale   => ⟨0x04#6, false, none⟩
  | .getbit     => ⟨0x05#6, false, none⟩
  | .setbit v   => ⟨0x06#6, false, some v⟩
  | .shl        => ⟨0x07#6, false, none⟩
  | .shr        => ⟨0x08#6, false, none⟩
  | .pack v     => ⟨0x09#6, false, some v⟩
  | .iszero     => ⟨0x0A#6, false, none⟩
  | .mcmp       => ⟨0x10#6, false, none⟩
  | .madd       => ⟨0x11#6, false, none⟩
  | .msub       => ⟨0x12#6, false, none⟩
  | .mmul       => ⟨0x13#6, false, none⟩
  | .mdiv       => ⟨0x14#6, false, none⟩
  | .mul10      => ⟨0x15#6, false, none⟩
  | .div10      => ⟨0x16#6, false, none⟩
  | .cmpabs     => ⟨0x18#6, false, none⟩
  | .norm       => ⟨0x19#6, false, none⟩
  | .cmp        => ⟨0x1A#6, false, none⟩
  | .lt         => ⟨0x1B#6, false, none⟩
  | .le         => ⟨0x1C#6, false, none⟩
  | .gt         => ⟨0x1D#6, false, none⟩
  | .ge         => ⟨0x1E#6, false, none⟩
  | .eq         => ⟨0x1F#6, false, none⟩
  | .ne         => ⟨0x20#6, false, none⟩
  | .add nd     => ⟨0x28#6, nd, none⟩
  | .sub nd     => ⟨0x29#6, nd, none⟩
  | .mul nd     => ⟨0x2A#6, nd, none⟩
  | .div nd     => ⟨0x2B#6, nd, none⟩
  | .neg nd     => ⟨0x2C#6, nd, none⟩
  | .brnd nd    => ⟨0x30#6, nd, none⟩
  | .round nd   => ⟨0x31#6, nd, none⟩
  | .floor nd   => ⟨0x32#6, nd, none⟩
  | .trunc nd   => ⟨0x33#6, nd, none⟩

/-- An instruction is well formed when its written form is. Every constructor carries only bits its command reads,
so every instruction is (the constructors leave nothing ill-formed to write). -/
def Instr.wellFormed (i : Instr) : Bool := i.written.wellFormed

end Sys2Proof
end

