-- ==== Sys2Proof/Decode.lean ====
section
/-! DEFINITION. Decoding a command word into a command, and encoding it back (R66, R67, R69, R70;
spec/30_encoding.md). -/

namespace Sys2Proof

/-- Why a command word is no command. The only reason is an unassigned operation code (R67): such a command is
accepted and completes with BAD_INPUT (R186). -/
inductive Reject where
  | unassignedOpcode (opc : BitVec 6)
deriving DecidableEq, Repr

/-- Field OPC of a command word, bits 5:0 (R66). -/
def wordOpc (w : Word32) : BitVec 6 := w.extractLsb' 0 6

/-- Field V of a command word, bit 6 (R66). -/
def wordV (w : Word32) : Bool := w.getLsbD 6

/-- Field ND of a command word, bit 31 (R66). -/
def wordNd (w : Word32) : Bool := w.getLsbD 31

/-- The command of an operation code, reading V and ND where R66 says they are used (R69). -/
def decodeFields (opc : BitVec 6) (v nd : Bool) : Except Reject Instr :=
  match opc.toNat with
  | 0x00 => .ok .zero
  | 0x01 => .ok .getsign
  | 0x02 => .ok (.setsign v)
  | 0x03 => .ok .getscale
  | 0x04 => .ok .setscale
  | 0x05 => .ok .getbit
  | 0x06 => .ok (.setbit v)
  | 0x07 => .ok .shl
  | 0x08 => .ok .shr
  | 0x09 => .ok (.pack v)
  | 0x0A => .ok .iszero
  | 0x10 => .ok .mcmp
  | 0x11 => .ok .madd
  | 0x12 => .ok .msub
  | 0x13 => .ok .mmul
  | 0x14 => .ok .mdiv
  | 0x15 => .ok .mul10
  | 0x16 => .ok .div10
  | 0x18 => .ok .cmpabs
  | 0x19 => .ok .norm
  | 0x1A => .ok .cmp
  | 0x1B => .ok .lt
  | 0x1C => .ok .le
  | 0x1D => .ok .gt
  | 0x1E => .ok .ge
  | 0x1F => .ok .eq
  | 0x20 => .ok .ne
  | 0x28 => .ok (.add nd)
  | 0x29 => .ok (.sub nd)
  | 0x2A => .ok (.mul nd)
  | 0x2B => .ok (.div nd)
  | 0x2C => .ok (.neg nd)
  | 0x30 => .ok (.brnd nd)
  | 0x31 => .ok (.round nd)
  | 0x32 => .ok (.floor nd)
  | 0x33 => .ok (.trunc nd)
  | _    => .error (.unassignedOpcode opc)

/-- The command of a 32-bit command word; bits 30:7 do not change decoding (R67, R69). -/
def decode (w : Word32) : Except Reject Instr :=
  decodeFields (wordOpc w) (wordV w) (wordNd w)

/-- `CMDWORD = ND * 2^31 + V * 2^6 + OPC` (R70). -/
def commandWord (opc : BitVec 6) (v nd : Bool) : Word32 :=
  BitVec.ofNat 32 (nd.toNat * 2 ^ 31 + v.toNat * 2 ^ 6 + opc.toNat)

/-- The command word of a written command (R70, R71). -/
def Command.assemble (c : Command) : Word32 :=
  commandWord c.opc (c.v.getD false) c.nd

/-- The command word of a command: the bits its command does not read are 0 (R70, R71). -/
def encode (i : Instr) : Word32 := i.written.assemble

/-- The decoder on an instruction numbered as spec/opcode_table.json numbers it: the low `nbits` bits of `w`, every
bit above them 0. A command is one 32-bit word (R69), so the word is the instruction. -/
def decodeTableWord (nbits w : Nat) : Option Instr :=
  match decode (BitVec.ofNat 32 (w % 2 ^ nbits)) with
  | .ok i    => some i
  | .error _ => none

end Sys2Proof
end

