-- ==== Sys2Proof/Config.lean ====
section
/-! DEFINITION. What is fixed for one block: the constants of R9 (spec/00_scope.md) and the open parameters of R10,
which have no body, so that a claim holds whatever they are. -/

namespace Sys2Proof.Config

/-- The identity string of R1. The block has no part number. -/
def identity : String := "ARILDMT-decimal-CORE/v7"

/-- `MANT_W`, the mantissa's width in bits (R9). -/
abbrev mantWidth : Nat := 96

/-- `SCALE_MAX` (R9). -/
abbrev scaleMax : Nat := 28

/-- `MANT_MAX` = 2^96 - 1, the largest mantissa (R9). -/
abbrev mantMax : Nat := 2 ^ 96 - 1

/-- The register window's size in bytes (R40). -/
abbrev windowBytes : Nat := 0x100

/-- `BASE`, the bus address of the register window: an OPEN parameter (R10, R40). See log 9. -/
opaque base : Nat

/-- The free part of `LAT`: no body, any function (R10, R209). See log 3. -/
opaque latencyLessOne : BitVec 6 → Value → Value → Nat

/-- `LAT(op, A, B)`: the cycles from acceptance to completion; all that is known of it is `1 <= LAT` (R10, R209). -/
def latency (op : BitVec 6) (a b : Value) : Nat := latencyLessOne op a b + 1

/-- `UNSPEC`: the n-th draw of an unspecified 128-bit value, under no law (R13, R196; D28). See log 1. -/
opaque unspec : Nat → Value

end Sys2Proof.Config
end

