-- ==== Sys2Proof/Machine/State.lean ====
section
/-! DEFINITION. The block's state as plain data (spec/10_state.md), the inputs still to come, and the reasons a step
can stop. Every field is listed under '## State' of INVENTORY.md. -/

namespace Sys2Proof.Machine

/-- The five status codes (R25); their numbers stand in Flags.lean. -/
inductive Status where
  | ok
  | big
  | small
  | divByZero
  | badInput
deriving DecidableEq, Repr

/-- The CMD register's fields (R23). Bits 30:7 have no storage and read 0. -/
structure CmdReg where
  opc : BitVec 6
  v   : Bool
  nd  : Bool
deriving DecidableEq, Repr

/-- The command latch L, which the host cannot see (R30). -/
structure Latch where
  opc : BitVec 6
  v   : Bool
  nd  : Bool
  a   : Value
  b   : Value
deriving DecidableEq, Repr

/-- One input of the block for one cycle (R48, R55, R200): the host's bus access, or none, or the reset signal. An
access names its bus address and its width in bytes; the data of a write is one bus word (an access of any other
width is not performed, R44, so its data matters to nothing). -/
inductive HostEvent where
  /-- A cycle with no access and no reset. -/
  | idle
  /-- A bus read of `width` bytes at bus address `addr` (R42). -/
  | read (addr width : Nat)
  /-- A bus write of `width` bytes at bus address `addr` (R43). -/
  | write (addr width : Nat) (v : Word32)
  /-- The polling loop `wait` of R73: read STATUS until BUSY = 0. -/
  | wait
  /-- The reset signal is asserted (R200). -/
  | reset
deriving DecidableEq, Repr

/-- What the host gets back from an access (R19, R42, R44). -/
inductive BusReply where
  /-- The register word a read returned (R42). -/
  | data (w : Word32)
  /-- The bus error response of R44. -/
  | busError
deriving DecidableEq, Repr

/-- Why the machine stops. No command of the block stops it. -/
inductive Fault where
  /-- Raised by a bus access (Ops.lean, `busRead` and `busWrite`) whose address is outside the register window: R55
  assumes the host never makes one and gives the model no step for it. Safe: nothing is proved past it (log 8). -/
  | outsideWindow
deriving DecidableEq, Repr

/-- Why an instruction has no meaning. -/
inductive Refusal where
  /-- Raised by exec's arm of a command without a meaning; no arm raises it now. Safe. -/
  | notModelled (mnemonic : String)
deriving DecidableEq, Repr

/-- The state of one block, with the inputs it will meet and the answers it gave. -/
structure State where
  /-- First operand A, written by the host only (R20). -/
  a : Value
  /-- Second operand B, written by the host only (R20). -/
  b : Value
  /-- Primary result R, written at completion only (R20). -/
  r : Value
  /-- Auxiliary result X, written at completion only (R20). -/
  x : Value
  /-- The last accepted command (R23). -/
  cmd : CmdReg
  /-- STATUS.ST (R24, R25). -/
  st : Status
  /-- STATUS.BUSY (R24). -/
  busy : Bool
  /-- STATUS.DONE (R24). -/
  done : Bool
  /-- The command latch L (R30). -/
  latch : Latch
  /-- The model's own: host cycles left before the running command's completion step (R10, R183; log 3). -/
  due : Nat
  /-- The model's own: how many UNSPEC draws have been taken (R196; log 1). -/
  draws : Nat
  /-- The model's own: the inputs still to come, the next one first (R48, R55; log 4). -/
  script : List HostEvent
  /-- The model's own: what the host has got back, newest first (R19; log 5). -/
  replies : List BusReply
deriving DecidableEq, Repr

/-- Right after reset (R32, R200). The latch has no value in the spec while BUSY = 0: zero here (DESIGN CHOICE, log 2);
`due`, `draws`, `script` and `replies` are the model's own fields (DESIGN CHOICE, logs 1, 3, 4, 5). -/
def State.reset : State where
  a := 0
  b := 0
  r := 0
  x := 0
  cmd := ⟨0, false, false⟩
  st := .ok
  busy := false
  done := false
  latch := ⟨0, false, false, 0, 0⟩
  due := 0
  draws := 0
  script := []
  replies := []

/-- What a step, or a meaning, answers. -/
abbrev StepOutcome := Host.Outcome State Fault Refusal

end Sys2Proof.Machine
end

