-- ==== Sys2Proof/Machine/Operands.lean ====
section
/-! DEFINITION. The packed decimal word and the ways a command reads an operand: R60 to R65 (spec/30_encoding.md), the
scale clamp R80 (spec/40_bitfield.md), the register words R21 and the interchange image R46. -/

namespace Sys2Proof.Machine

/-- `mant(w) = w[95:0]` (R61). -/
def mant (w : Value) : Nat := (w.extractLsb' 0 96).toNat

/-- `sgn(w) = w[127]` (R61): true is negative. -/
def sgn (w : Value) : Bool := w.getLsbD 127

/-- `scl(w) = w[119:112]` (R61), 0 to 255. -/
def scl (w : Value) : Nat := (w.extractLsb' 112 8).toNat

/-- `pack(s, e, m) = s * 2^127 + e * 2^112 + m` (R61): reserved bits are 0. -/
def pack (s : Bool) (e m : Nat) : Value :=
  BitVec.ofNat 128 (s.toNat * 2 ^ 127 + e * 2 ^ 112 + m)

/-- `with_sign(w, s)`: bit 127 replaced (R61). -/
def withSign (w : Value) (s : Bool) : Value :=
  (BitVec.ofBool s ++ w.extractLsb' 0 127 : BitVec (1 + 127))

/-- `with_scale(w, e)`: bits 119:112 replaced (R61). -/
def withScale (w : Value) (e : Nat) : Value :=
  (w.extractLsb' 120 8 ++ (BitVec.ofNat 8 e ++ w.extractLsb' 0 112) : BitVec (8 + (8 + 112)))

/-- `with_mant(w, m)`: bits 95:0 replaced (R61). -/
def withMant (w : Value) (m : Nat) : Value :=
  (w.extractLsb' 96 32 ++ BitVec.ofNat 96 m : BitVec (32 + 96))

/-- `is_zero(w)`: all three mantissa words are zero (R61, R64). -/
def isZero (w : Value) : Bool := mant w == 0

/-- `canon(w)`: the scale field is at most 28 (R61, R62). -/
def canon (w : Value) : Bool := decide (scl w ≤ Config.scaleMax)

/-- `value(w) = (-1)^sgn(w) * mant(w) / 10^scl(w)` (R2, R61), meant for canonical words. -/
def value (w : Value) : ℚ :=
  (if sgn w then -1 else 1) * (mant w : ℚ) / (10 : ℚ) ^ scl w

/-- `int32(B) = sext_32(B[31:0])` (R13, R65). -/
def int32 (w : Value) : Int := (w.extractLsb' 0 32).toInt

/-- `clamp28(n)` (R80). -/
def clamp28 (n : Int) : Nat :=
  if n < 0 then 0 else if 28 < n then 28 else n.toNat

/-- `zext_128` of a natural below 2^128 (R13). -/
def zext (n : Nat) : Value := BitVec.ofNat 128 n

/-- Word k of a 128-bit register, `Q[32k+31:32k]` (R21). -/
def regWord (q : Value) (k : Nat) : Word32 := q.extractLsb' (32 * k) 32

/-- A 128-bit register with word k replaced (R21, R43). -/
def setRegWord (q : Value) (k : Nat) (v : Word32) : Value :=
  (q &&& ~~~((BitVec.allOnes 32).setWidth 128 <<< (32 * k))) ||| (v.setWidth 128 <<< (32 * k))

/-- The 16-byte little-endian interchange image of a value: byte k holds bits 8k+7:8k (R46). It is the host's layout;
the block never reads it. -/
def image (w : Value) : List (BitVec 8) := (List.range 16).map fun k => w.extractLsb' (8 * k) 8

/-- The value whose interchange image is the given list of bytes, the first byte least significant (R46). -/
def ofImage (bytes : List (BitVec 8)) : Value :=
  BitVec.ofNat 128 (bytes.foldr (fun byte rest => byte.toNat + 256 * rest) 0)

end Sys2Proof.Machine
end

