-- ==== Sys2Proof/Machine/Flags.lean ====
section
/-! DEFINITION. Status codes, the STATUS and CMD words the host reads, and how answers stand in X: R23 to R25
(spec/10_state.md) and R68 (spec/30_encoding.md). -/

namespace Sys2Proof.Machine

/-- The number of a status code (R25). -/
def statusCode : Status → BitVec 3
  | .ok        => 0
  | .big       => 1
  | .small     => 2
  | .divByZero => 3
  | .badInput  => 4

/-- The STATUS word: ST in bits 2:0, BUSY in bit 8, DONE in bit 9, every other bit 0 (R24). -/
def statusWord (s : State) : Word32 :=
  BitVec.ofNat 32 (s.done.toNat * 2 ^ 9 + s.busy.toNat * 2 ^ 8 + (statusCode s.st).toNat)

/-- The CMD word `{ND, 24'b0, V, OPC}` (R23). -/
def cmdWord (c : CmdReg) : Word32 :=
  BitVec.ofNat 32 (c.nd.toNat * 2 ^ 31 + c.v.toNat * 2 ^ 6 + c.opc.toNat)

/-- The number -1, 0 or +1 of a comparison (R68, R100). -/
def compareInt : Ordering → Int
  | .lt => -1
  | .eq => 0
  | .gt => 1

/-- A compare code in X: `zext_128(c mod 2^32)` (R68). -/
def compareCode (c : Ordering) : Value := (BitVec.ofInt 32 (compareInt c)).setWidth 128

/-- A predicate bit, or any single-bit result, in X: 0 or 1 (R68). -/
def flagBit (p : Bool) : Value := zext p.toNat

end Sys2Proof.Machine
end

