-- ==== Sys2Proof/Machine/Ops.lean ====
section
/-! DEFINITION. The shared operations: completion (R183, R184, R196), the checks every command begins with (R185,
R187), the register window (R40 to R44), acceptance (R205, R206), reset (R200, R201) and one cycle of the host (R48,
R55). The block takes no exception and returns from none (R181, R189): `raiseBadInput` is its only abnormal entry. -/

namespace Sys2Proof.Machine

/-! ## Completion -/

/-- `finish(st, r, x)`: R, X and STATUS in one indivisible update; not A, not B, not CMD (R183). -/
def finish (st : Status) (r x : Value) (s : State) : State :=
  { s with r := r, x := x, st := st, busy := false, done := true }

/-- `raise BAD_INPUT`: the completion that keeps R and X (R184). -/
def raiseBadInput (s : State) : State :=
  { s with st := .badInput, busy := false, done := true }

/-- The next UNSPEC draw (R196; a free value, log 1). -/
def unspecDraw (s : State) : Value := Config.unspec s.draws

/-- The state after one UNSPEC draw is taken (log 1). -/
def drawn (s : State) : State := { s with draws := s.draws + 1 }

/-- A completion with R an UNSPEC draw and X = 0: BIG, and DIV's DIV_BY_ZERO (R196). -/
def finishUnspecR (st : Status) (s : State) : State :=
  finish st (unspecDraw s) 0 (drawn s)

/-- A completion with R and X two UNSPEC draws: MDIV's DIV_BY_ZERO (R196). -/
def finishUnspecRX (st : Status) (s : State) : State :=
  finish st (unspecDraw s) (unspecDraw (drawn s)) (drawn (drawn s))

/-! ## The checks a command begins with (order: R182) -/

/-- `check_nd()`: the null destination (R185). -/
def checkNd (nd : Bool) (s k : State) : State :=
  if nd then raiseBadInput s else k

/-- `check_canon(A)` (R187). -/
def checkCanonA (s k : State) : State :=
  if canon s.latch.a then k else raiseBadInput s

/-- `check_canon(A, B)` (R187). -/
def checkCanonAB (s k : State) : State :=
  if canon s.latch.a && canon s.latch.b then k else raiseBadInput s

/-! ## The register window -/

/-- The register word at a word-aligned window offset (R40, R42); reserved offsets read 0. -/
def memRead (off : Nat) (s : State) : Word32 :=
  if off < 0x10 then regWord s.a (off / 4)
  else if off < 0x20 then regWord s.b ((off - 0x10) / 4)
  else if off < 0x30 then regWord s.r ((off - 0x20) / 4)
  else if off < 0x40 then regWord s.x ((off - 0x30) / 4)
  else if off = 0x40 then cmdWord s.cmd
  else if off = 0x44 then statusWord s
  else 0

/-- Acceptance of a command word (R205): CMD and the latch are written, BUSY set, DONE cleared, ST kept. The
completion step is `LAT` cycles away (log 3). -/
def accept (v : Word32) (s : State) : State :=
  { s with
    cmd := ⟨wordOpc v, wordV v, wordNd v⟩
    latch := ⟨wordOpc v, wordV v, wordNd v, s.a, s.b⟩
    busy := true
    done := false
    due := Config.latency (wordOpc v) s.a s.b - 1 }

/-- A word write at a word-aligned window offset (R43): A and B at any time, CMD only while BUSY = 0 (R206), every
other offset ignored. -/
def memWrite (off : Nat) (v : Word32) (s : State) : State :=
  if off < 0x10 then { s with a := setRegWord s.a (off / 4) v }
  else if off < 0x20 then { s with b := setRegWord s.b ((off - 0x10) / 4) v }
  else if off = 0x40 then (if s.busy then s else accept v s)
  else s

/-! ## The bus -/

/-- The window offset of a bus address, if it lies in the window (R40; `BASE` is open, log 9). -/
def windowOffset (addr : Nat) : Option Nat :=
  if Config.base ≤ addr ∧ addr < Config.base + Config.windowBytes then some (addr - Config.base) else none

/-- The only access the window takes: 32 bits wide, at an offset that is a multiple of 4 (R44). -/
def accessOk (off width : Nat) : Bool := width == 4 && off % 4 == 0

/-- The host gets an answer (log 5). -/
def reply (m : BusReply) (s : State) : State := { s with replies := m :: s.replies }

/-- A bus read (R42); a bus error with no effect when the access is not one the window takes (R44). -/
def busRead (addr width : Nat) (s : State) : StepOutcome :=
  match windowOffset addr with
  | none => .fault .outsideWindow
  | some off =>
    if accessOk off width then .next (reply (.data (memRead off s)) s) else .next (reply .busError s)

/-- A bus write (R43); a bus error with no effect when the access is not one the window takes (R44). -/
def busWrite (addr width : Nat) (v : Word32) (s : State) : StepOutcome :=
  match windowOffset addr with
  | none => .fault .outsideWindow
  | some off =>
    if accessOk off width then .next (memWrite off v s) else .next (reply .busError s)

/-! ## Reset -/

/-- Every piece of the block's state takes its reset value (R200), so a running command is abandoned (R201). The
inputs to come, the answers given and the count of draws are not the block's and stay (log 6). -/
def resetBlock (s : State) : State :=
  { State.reset with draws := s.draws, script := s.script, replies := s.replies }

/-- The next input is the reset signal (R200). -/
def resetNext (s : State) : Bool := s.script.head? == some .reset

/-- Reset, taken from the input list (R200). -/
def takeReset (s : State) : State := resetBlock { s with script := s.script.tail }

/-! ## One cycle of the host -/

/-- A cycle passes for the running command; an idle block keeps all its state (R195, R209). -/
def tick (s : State) : State := { s with due := if s.busy then s.due - 1 else s.due }

/-- One pass of the polling loop `wait` of R73: STATUS is read, and the loop goes on while BUSY = 1. -/
def pollStatus (s : State) : State :=
  let t := reply (.data (memRead 0x44 s)) s
  if s.busy then { t with script := .wait :: t.script } else t

/-- What one input does (R55). -/
def hostAct (e : HostEvent) (s : State) : StepOutcome :=
  match e with
  | .idle => .next s
  | .read addr width => busRead addr width s
  | .write addr width v => busWrite addr width v s
  | .wait => .next (pollStatus s)
  | .reset => .next (resetBlock s)

/-- One cycle in which the block does not complete: the next input happens, or none is left (R48). -/
def hostCycle (s : State) : StepOutcome :=
  match s.script with
  | [] => .next (tick s)
  | e :: rest => hostAct e (tick { s with script := rest })

/-- A command word accepted on the current operands, its `LAT` cycles already over, and no reset about to come: the
state from which the next step runs that command (log 10). -/
def placeCommand (w : Word32) (s : State) : State :=
  { accept w s with due := 0, script := s.script.dropWhile (fun e => e == .reset) }

/-- The block's completion step is the next thing to happen: a command runs and its `LAT` cycles are over (R183; log 3). -/
def completionDue (s : State) : Bool := s.busy && s.due == 0

end Sys2Proof.Machine
end

