-- ==== Sys2Proof/Machine/Datapath.lean ====
section
/-! DEFINITION. The magnitude sub-blocks as functions on naturals, R100 to R106 (spec/41_datapath.md). The commands use
the normative results; the word-by-word and bit-serial forms the rules describe stand beside them (`maddWords`,
`mmulWords`, `restoringDivide`) and are claimed equal to them. -/

namespace Sys2Proof.Machine

/-- `mcmp(m1, m2)` (R100). -/
def mcmp (m1 m2 : Nat) : Ordering := if m1 < m2 then .lt else if m1 = m2 then .eq else .gt

/-- `madd(m1, m2)`: the sum modulo 2^96 and the carry out of bit 95 (R101). -/
def madd (m1 m2 : Nat) : Nat × Bool := ((m1 + m2) % 2 ^ 96, decide (2 ^ 96 ≤ m1 + m2))

/-- `msub(m1, m2)` for mantissas: the difference modulo 2^96 and the borrow (R102). -/
def msub (m1 m2 : Nat) : Nat × Bool := ((m1 + 2 ^ 96 - m2) % 2 ^ 96, decide (m1 < m2))

/-- `mmul(m1, m2)`: the exact product, below 2^192 (R103). -/
def mmul (m1 m2 : Nat) : Nat := m1 * m2

/-- `mdivmod(n, d)`: quotient and remainder, for d not 0 (R104). -/
def mdivmod (n d : Nat) : Nat × Nat := (n / d, n % d)

/-- `mul10(m)`: ten times m, or m unchanged with the overflow flag (R105). -/
def mul10 (m : Nat) : Nat × Bool :=
  if m * 10 ≤ Config.mantMax then (m * 10, false) else (m, true)

/-- `div10(m)`: one digit drop (R106). -/
def div10 (m : Nat) : Nat × Nat := (m / 10, m % 10)

/-! ## The forms the rules describe the sub-blocks by -/

/-- The 32-bit words of a natural, `k` of them, least significant first (R21). -/
def toWords : Nat → Nat → List Nat
  | 0, _ => []
  | k + 1, m => m % 2 ^ 32 :: toWords k (m / 2 ^ 32)

/-- The natural whose 32-bit words are given, least significant first. -/
def ofWords : List Nat → Nat
  | [] => 0
  | w :: ws => w + 2 ^ 32 * ofWords ws

/-- Addition word by word with carry between the words (R101): the sum words and the carry out. -/
def addWords : List Nat → List Nat → Nat → List Nat × Nat
  | x :: xs, y :: ys, c =>
    let t := x + y + c
    let rest := addWords xs ys (t / 2 ^ 32)
    (t % 2 ^ 32 :: rest.1, rest.2)
  | _, _, c => ([], c)

/-- The 96-bit adder built of three 32-bit words (R101). -/
def maddWords (m1 m2 : Nat) : Nat × Nat :=
  let p := addWords (toWords 3 m1) (toWords 3 m2) 0
  (ofWords p.1, p.2)

/-- One row of R103's multiplier: `buf[i+j] + a[i] * b[j] + carry` for j in order, then the carry word. -/
def mulRow (ai : Nat) : List Nat → List Nat → Nat → List Nat
  | bj :: bs, x :: buf, carry =>
    let t := x + ai * bj + carry
    t % 2 ^ 32 :: mulRow ai bs buf (t / 2 ^ 32)
  | _, _, carry => [carry]

/-- R103's rows: after row i word i of the buffer is final, and the words above it go into the next row. -/
def mulRows (bs : List Nat) : List Nat → List Nat → List Nat
  | [], buf => buf
  | ai :: as, buf =>
    match mulRow ai bs buf 0 with
    | [] => []
    | w :: rest => w :: mulRows bs as rest

/-- The six-word buffer of R103. -/
def mmulWords (m1 m2 : Nat) : List Nat := mulRows (toWords 3 m2) (toWords 3 m1) [0, 0, 0]

/-- The alignment loop of R104's divider: double divisor and mask while the divisor is at most n. -/
def divAlign (n : Nat) : Nat → Nat → Nat → Nat × Nat
  | 0, dd, mask => (dd, mask)
  | fuel + 1, dd, mask => if dd ≤ n then divAlign n fuel (dd * 2) (mask * 2) else (dd, mask)

/-- The test-and-subtract loop of R104's divider, high bit to low; it ends when the mask is 1. -/
def divTest : Nat → Nat → Nat → Nat → Nat → Nat × Nat
  | 0, _, _, q, r => (q, r)
  | fuel + 1, dd, mask, q, r =>
    if 1 < mask then
      if dd / 2 ≤ r then divTest fuel (dd / 2) (mask / 2) (q + mask / 2) (r - dd / 2)
      else divTest fuel (dd / 2) (mask / 2) q r
    else (q, r)

/-- R104's reference algorithm, restoring binary long division: at most 96 shifts, then at most 96 tests (R212). -/
def restoringDivide (n d : Nat) : Nat × Nat :=
  let aligned := divAlign n 96 d 1
  divTest 96 aligned.1 aligned.2 0 n

end Sys2Proof.Machine
end

