-- ==== Sys2Proof/Machine/Compare.lean ====
section
/-! DEFINITION. The magnitude comparator and normaliser, R120 to R132 (spec/42_compare_normalize.md). Every command
here checks that A and B are canonical; none is in the status group. -/

namespace Sys2Proof.Machine

/-- `raise_scale` of R120: at most `steps` times ten, one scale step each, stopping early where `mul10` overflows. -/
def raiseScaleBy : Nat → Value → Value
  | 0, w => w
  | steps + 1, w =>
    let p := mul10 (mant w)
    if p.2 then w else raiseScaleBy steps (withScale (withMant w p.1) (scl w + 1))

/-- `raise_scale(w, t)` (R120): the loop `while scl(w) < t` makes `t - scl(w)` steps, each adding 1 to the scale. -/
def raiseScale (w : Value) (t : Nat) : Value := raiseScaleBy (t - scl w) w

/-- `normalize(a, b)` (R120): working copies; the operand with the larger scale is not changed. -/
def normalize (a b : Value) : Value × Value :=
  if scl a < scl b then (raiseScale a (scl b), b)
  else if scl b < scl a then (a, raiseScale b (scl a))
  else (a, b)

/-- `cmpabs(a, b)` (R122). -/
def cmpabs (a b : Value) : Ordering :=
  let p := normalize (withSign a false) (withSign b false)
  mcmp (mant p.1) (mant p.2)

/-- `scmp(a, b)` (R123). -/
def scmp (a b : Value) : Ordering :=
  if isZero a && isZero b then .eq
  else if isZero a then (if sgn b then .gt else .lt)
  else if isZero b then (if sgn a then .lt else .gt)
  else if sgn a != sgn b then (if sgn a then .lt else .gt)
  else if sgn a then (cmpabs a b).swap else cmpabs a b

/-- A query command's completion: R = 0, the answer in X (R68). -/
def finishQuery (x : Value) (s : State) : State := finish .ok 0 x s

/-- The six predicates' shape: the check, then the predicate bit of `scmp` (R127 to R132). -/
def finishPredicate (p : Ordering → Bool) (s : State) : State :=
  checkCanonAB s (finishQuery (flagBit (p (scmp s.latch.a s.latch.b))) s)

/-- CMPABS (R124). -/
def execCmpabs (s : State) : StepOutcome :=
  .next (checkCanonAB s (finishQuery (compareCode (cmpabs s.latch.a s.latch.b)) s))

/-- NORM (R125). -/
def execNorm (s : State) : StepOutcome :=
  let p := normalize s.latch.a s.latch.b
  .next (checkCanonAB s (finish .ok p.1 p.2 s))

/-- CMP (R126). -/
def execCmp (s : State) : StepOutcome :=
  .next (checkCanonAB s (finishQuery (compareCode (scmp s.latch.a s.latch.b)) s))

/-- LT (R127). -/
def execLt (s : State) : StepOutcome := .next (finishPredicate (fun c => c == .lt) s)

/-- LE (R128). -/
def execLe (s : State) : StepOutcome := .next (finishPredicate (fun c => c != .gt) s)

/-- GT (R129). -/
def execGt (s : State) : StepOutcome := .next (finishPredicate (fun c => c == .gt) s)

/-- GE (R130). -/
def execGe (s : State) : StepOutcome := .next (finishPredicate (fun c => c != .lt) s)

/-- EQ (R131). -/
def execEq (s : State) : StepOutcome := .next (finishPredicate (fun c => c == .eq) s)

/-- NE (R132). -/
def execNe (s : State) : StepOutcome := .next (finishPredicate (fun c => c != .eq) s)

end Sys2Proof.Machine
end

