-- ==== Sys2Proof/Machine/Rounding.lean ====
section
/-! DEFINITION. The rounding and truncation engine, R160 to R165 (spec/44_rounding.md). Every command honours ND and
checks that A is canonical. -/

namespace Sys2Proof.Machine

/-- The working registers of R160's digit drop. -/
structure DropRegs where
  q   : Nat
  rem : Nat
  pw  : Nat
  d   : Nat
  nz  : Bool
deriving DecidableEq, Repr

/-- One round of R160's loop: the digit just dropped joins the remainder and the non-zero flag. -/
def dropDigit (g : DropRegs) : DropRegs :=
  let p := div10 g.q
  { q := p.1, rem := g.rem + p.2 * g.pw, pw := g.pw * 10, d := p.2, nz := g.nz || p.2 != 0 }

/-- R160's loop, k rounds. -/
def dropLoop : Nat → DropRegs → DropRegs
  | 0, g => g
  | k + 1, g => dropLoop k (dropDigit g)

/-- `drop(m, k)`: k decimal digits removed by k divisions by ten (R160). -/
def drop (m k : Nat) : DropRegs := dropLoop k ⟨m, 0, 1, 0, false⟩

/-- `rhe(m, k)`: the integer nearest to m / 10^k, ties to the even integer (R161; C2 of spec/90_conflicts.md). -/
def rhe (m k : Nat) : Nat :=
  let g := drop m k
  if k = 0 then g.q
  else
    let h := 5 * 10 ^ (k - 1)
    if h < g.rem ∨ (g.rem = h ∧ g.q % 2 = 1) then g.q + 1 else g.q

/-- ROUND's integer magnitude (R163). -/
def roundHalfUp (m k : Nat) : Nat :=
  let g := drop m k
  if 1 ≤ k ∧ 5 ≤ g.d then g.q + 1 else g.q

/-- FLOOR's integer magnitude (R164). -/
def floorMagnitude (negative : Bool) (m k : Nat) : Nat :=
  let g := drop m k
  if negative && g.nz then g.q + 1 else g.q

/-- TRUNC's integer magnitude (R165). -/
def truncMagnitude (m k : Nat) : Nat := (drop m k).q

/-- The four commands' shape: the checks, then an integer magnitude with A's sign at scale 0 (R162 to R165). -/
def finishRounded (nd : Bool) (m : Nat) (s : State) : State :=
  checkNd nd s (checkCanonA s (finish .ok (pack (sgn s.latch.a) 0 m) 0 s))

/-- BRND (R162). -/
def execBrnd (nd : Bool) (s : State) : StepOutcome :=
  .next (finishRounded nd (rhe (mant s.latch.a) (scl s.latch.a)) s)

/-- ROUND (R163). -/
def execRound (nd : Bool) (s : State) : StepOutcome :=
  .next (finishRounded nd (roundHalfUp (mant s.latch.a) (scl s.latch.a)) s)

/-- FLOOR (R164). -/
def execFloor (nd : Bool) (s : State) : StepOutcome :=
  .next (finishRounded nd (floorMagnitude (sgn s.latch.a) (mant s.latch.a) (scl s.latch.a)) s)

/-- TRUNC (R165). -/
def execTrunc (nd : Bool) (s : State) : StepOutcome :=
  .next (finishRounded nd (truncMagnitude (mant s.latch.a) (scl s.latch.a)) s)

end Sys2Proof.Machine
end

