-- ==== Sys2Proof/Machine/Arithmetic.lean ====
section
/-! DEFINITION. The arithmetic commands, R140 to R147 (spec/43_arithmetic.md). Every command honours ND; ADD, SUB, MUL
and DIV check that A and B are canonical, NEG checks nothing. -/

namespace Sys2Proof.Machine

/-- `smadd(a, b)` (R140): the sum of two non-zero canonical values, or none where the carry out of bit 95 gives BIG. -/
def smadd (a b : Value) : Option Value :=
  let p := normalize a b
  let e := scl p.1
  if sgn a = sgn b then
    let t := madd (mant p.1) (mant p.2)
    if t.2 then none else some (pack (sgn a) e t.1)
  else
    match mcmp (mant p.1) (mant p.2) with
    | .gt => some (pack (sgn a) e (mant p.1 - mant p.2))
    | .lt => some (pack (sgn b) e (mant p.2 - mant p.1))
    | .eq => some (pack false e 0)

/-- The completion with `smadd`'s answer: OK with the sum, or BIG with R an UNSPEC draw (R141, R142, R196). -/
def finishSum (sum : Option Value) (s : State) : State :=
  match sum with
  | some r => finish .ok r 0 s
  | none => finishUnspecR .big s

/-- ADD's own part, after the checks (R141): A is tested for zero first, and a pass-through is verbatim. -/
def addCore (a b : Value) (s : State) : State :=
  if isZero a then finish .ok b 0 s
  else if isZero b then finish .ok a 0 s
  else finishSum (smadd a b) s

/-- ADD (R141). -/
def execAdd (nd : Bool) (s : State) : StepOutcome :=
  .next (checkNd nd s (checkCanonAB s (addCore s.latch.a s.latch.b s)))

/-- The word with its sign flipped (R142, R147). -/
def flipSign (w : Value) : Value := withSign w (!sgn w)

/-- SUB (R142): ADD's own part on A and B with its sign flipped. -/
def execSub (nd : Bool) (s : State) : StepOutcome :=
  .next (checkNd nd s (checkCanonAB s (addCore s.latch.a (flipSign s.latch.b) s)))

/-- MUL's own part, after the checks (R143, R144): the zero short-circuit, BIG, then the scale sum kept or the product
rounded half-even to an integer. -/
def mulCore (a b : Value) (s : State) : State :=
  if isZero a || isZero b then finish .ok 0 0 s
  else
    let p := mmul (mant a) (mant b)
    if 2 ^ 96 ≤ p then finishUnspecR .big s
    else
      let sign := sgn a ^^ sgn b
      let e := scl a + scl b
      if e ≤ 28 then finish .ok (pack sign e p) 0 s
      else finish .ok (pack sign 0 (rhe p e)) 0 s

/-- MUL (R143). -/
def execMul (nd : Bool) (s : State) : StepOutcome :=
  .next (checkNd nd s (checkCanonAB s (mulCore s.latch.a s.latch.b s)))

/-- The degenerate-small guard of R146. -/
def isSmallQuotient (q scale : Nat) : Bool := decide (0 < q) && decide (q < 2 ^ 32) && scale == 28

/-- DIV's own part, after the checks (R145, R146): the zero divisor, the zero dividend, SMALL, then the quotient at
scale 0 in R and the remainder in X. -/
def divCore (a b : Value) (s : State) : State :=
  if isZero b then finishUnspecR .divByZero s
  else if isZero a then finish .ok 0 0 s
  else
    let p := normalize a b
    let t := mdivmod (mant p.1) (mant p.2)
    if isSmallQuotient t.1 (scl p.1) then finish .small 0 0 s
    else finish .ok (pack (sgn a ^^ sgn b) 0 t.1) (pack (sgn a) (scl p.1) t.2) s

/-- DIV (R145). -/
def execDiv (nd : Bool) (s : State) : StepOutcome :=
  .next (checkNd nd s (checkCanonAB s (divCore s.latch.a s.latch.b s)))

/-- NEG (R147). -/
def execNeg (nd : Bool) (s : State) : StepOutcome :=
  .next (checkNd nd s (finish .ok (flipSign s.latch.a) 0 s))

end Sys2Proof.Machine
end

