-- ==== Sys2Proof/Machine/BitField.lean ====
section
/-! DEFINITION. The bit-field packer/unpacker commands, R81 to R91 (spec/40_bitfield.md). None is in the status group,
none checks canonicity, none ends with a status other than OK. -/

namespace Sys2Proof.Machine

/-- ZERO (R81). -/
def execZero (s : State) : StepOutcome := .next (finish .ok 0 0 s)

/-- GETSIGN (R82). -/
def execGetsign (s : State) : StepOutcome := .next (finish .ok 0 (flagBit (sgn s.latch.a)) s)

/-- SETSIGN v (R83). -/
def execSetsign (v : Bool) (s : State) : StepOutcome := .next (finish .ok (withSign s.latch.a v) 0 s)

/-- The scale GETSCALE reports: a field of 29 to 255 is invalid input and reads 0 (R84). -/
def reportedScale (w : Value) : Nat := if scl w ≤ 28 then scl w else 0

/-- GETSCALE (R84). -/
def execGetscale (s : State) : StepOutcome := .next (finish .ok 0 (zext (reportedScale s.latch.a)) s)

/-- SETSCALE (R85). -/
def execSetscale (s : State) : StepOutcome :=
  .next (finish .ok (withScale s.latch.a (clamp28 (int32 s.latch.b))) 0 s)

/-- The position names a mantissa bit, 0 to 95 (R86, R87). -/
def inMantissa (n : Int) : Bool := decide (0 ≤ n) && decide (n ≤ 95)

/-- Mantissa bit n, 0 out of range (R86). -/
def mantissaBit (w : Value) (n : Int) : Bool := inMantissa n && w.getLsbD n.toNat

/-- GETBIT (R86). -/
def execGetbit (s : State) : StepOutcome :=
  .next (finish .ok 0 (flagBit (mantissaBit s.latch.a (int32 s.latch.b))) s)

/-- A word with bit n replaced by v. -/
def replaceBit (w : Value) (n : Nat) (v : Bool) : Value :=
  if v then w ||| (1#128 <<< n) else w &&& ~~~(1#128 <<< n)

/-- A word with mantissa bit n replaced by v; unchanged out of range (R87). -/
def setMantissaBit (w : Value) (n : Int) (v : Bool) : Value :=
  if inMantissa n then replaceBit w n.toNat v else w

/-- SETBIT v (R87). -/
def execSetbit (v : Bool) (s : State) : StepOutcome :=
  .next (finish .ok (setMantissaBit s.latch.a (int32 s.latch.b) v) 0 s)

/-- SHL (R88). -/
def execShl (s : State) : StepOutcome :=
  .next (finish .ok (withMant s.latch.a (mant s.latch.a * 2 % 2 ^ 96)) (flagBit (s.latch.a.getLsbD 95)) s)

/-- SHR (R89). -/
def execShr (s : State) : StepOutcome :=
  .next (finish .ok (withMant s.latch.a (mant s.latch.a / 2)) (flagBit (s.latch.a.getLsbD 0)) s)

/-- PACK v (R90). -/
def execPack (v : Bool) (s : State) : StepOutcome :=
  .next (finish .ok (pack v (clamp28 (int32 s.latch.b)) (mant s.latch.a)) 0 s)

/-- ISZERO (R91). -/
def execIszero (s : State) : StepOutcome := .next (finish .ok 0 (flagBit (isZero s.latch.a)) s)

end Sys2Proof.Machine
end

