-- ==== Sys2Proof/Machine/Primitive.lean ====
section
/-! DEFINITION. The primitive commands, R107 to R113 (spec/41_datapath.md). Only the mantissas are read; no command
here is in the status group or checks canonicity. -/

namespace Sys2Proof.Machine

/-- MCMP (R107). -/
def execMcmp (s : State) : StepOutcome :=
  .next (finish .ok 0 (compareCode (mcmp (mant s.latch.a) (mant s.latch.b))) s)

/-- MADD (R108). -/
def execMadd (s : State) : StepOutcome :=
  let p := madd (mant s.latch.a) (mant s.latch.b)
  .next (finish .ok (zext p.1) (flagBit p.2) s)

/-- MSUB (R109). -/
def execMsub (s : State) : StepOutcome :=
  let p := msub (mant s.latch.a) (mant s.latch.b)
  .next (finish .ok (zext p.1) (flagBit p.2) s)

/-- MMUL (R110): P[95:0] in R, P[191:96] in X. -/
def execMmul (s : State) : StepOutcome :=
  let p := mmul (mant s.latch.a) (mant s.latch.b)
  .next (finish .ok (zext (p % 2 ^ 96)) (zext (p / 2 ^ 96)) s)

/-- MDIV (R111). -/
def execMdiv (s : State) : StepOutcome :=
  if mant s.latch.b = 0 then .next (finishUnspecRX .divByZero s)
  else
    let p := mdivmod (mant s.latch.a) (mant s.latch.b)
    .next (finish .ok (zext p.1) (zext p.2) s)

/-- MUL10 (R112). -/
def execMul10 (s : State) : StepOutcome :=
  let p := mul10 (mant s.latch.a)
  .next (finish .ok (zext p.1) (flagBit p.2) s)

/-- DIV10 (R113). -/
def execDiv10 (s : State) : StepOutcome :=
  let p := div10 (mant s.latch.a)
  .next (finish .ok (zext p.1) (zext p.2) s)

end Sys2Proof.Machine
end

