-- ==== Sys2Proof/Machine/Dispatch.lean ====
section
/-! DEFINITION. The meaning of each command: one arm per row of the opcode map (R66). -/

namespace Sys2Proof.Machine

def exec (i : Instr) (s : State) : Host.Outcome State Fault Refusal :=
  match i with
  | .zero => Sys2Proof.Machine.execZero s
  | .getsign => Sys2Proof.Machine.execGetsign s
  | .setsign v => Sys2Proof.Machine.execSetsign v s
  | .getscale => Sys2Proof.Machine.execGetscale s
  | .setscale => Sys2Proof.Machine.execSetscale s
  | .getbit => Sys2Proof.Machine.execGetbit s
  | .setbit v => Sys2Proof.Machine.execSetbit v s
  | .shl => Sys2Proof.Machine.execShl s
  | .shr => Sys2Proof.Machine.execShr s
  | .pack v => Sys2Proof.Machine.execPack v s
  | .iszero => Sys2Proof.Machine.execIszero s
  | .mcmp => Sys2Proof.Machine.execMcmp s
  | .madd => Sys2Proof.Machine.execMadd s
  | .msub => Sys2Proof.Machine.execMsub s
  | .mmul => Sys2Proof.Machine.execMmul s
  | .mdiv => Sys2Proof.Machine.execMdiv s
  | .mul10 => Sys2Proof.Machine.execMul10 s
  | .div10 => Sys2Proof.Machine.execDiv10 s
  | .cmpabs => Sys2Proof.Machine.execCmpabs s
  | .norm => Sys2Proof.Machine.execNorm s
  | .cmp => Sys2Proof.Machine.execCmp s
  | .lt => Sys2Proof.Machine.execLt s
  | .le => Sys2Proof.Machine.execLe s
  | .gt => Sys2Proof.Machine.execGt s
  | .ge => Sys2Proof.Machine.execGe s
  | .eq => Sys2Proof.Machine.execEq s
  | .ne => Sys2Proof.Machine.execNe s
  | .add nd => Sys2Proof.Machine.execAdd nd s
  | .sub nd => Sys2Proof.Machine.execSub nd s
  | .mul nd => Sys2Proof.Machine.execMul nd s
  | .div nd => Sys2Proof.Machine.execDiv nd s
  | .neg nd => Sys2Proof.Machine.execNeg nd s
  | .brnd nd => Sys2Proof.Machine.execBrnd nd s
  | .round nd => Sys2Proof.Machine.execRound nd s
  | .floor nd => Sys2Proof.Machine.execFloor nd s
  | .trunc nd => Sys2Proof.Machine.execTrunc nd s

end Sys2Proof.Machine
end

