-- ==== Sys2Proof/Machine/Step.lean ====
section
/-! DEFINITION. One step of the block: the reset signal, else a completion that is due, else one cycle of the host
(R18, R48, R183, R200). -/

namespace Sys2Proof.Machine

/-- The completion of the latched command (R183); an unassigned operation code completes with BAD_INPUT (R186). -/
def complete (s : State) : Host.Outcome State Fault Refusal :=
  match decodeFields s.latch.opc s.latch.v s.latch.nd with
  | .ok i => exec i s
  | .error _ => .next (raiseBadInput s)

/-- One step (log 3, log 6). -/
def step (s : State) : Host.Outcome State Fault Refusal :=
  if resetNext s then .next (takeReset s)
  else if completionDue s then complete s
  else hostCycle s

/-- The command word of an instruction, accepted and due at once: `placeCommand` of Ops.lean on the low `nbits` bits of
`w`, so that the very next step runs it (log 10). -/
def State.withFetchWord (s : State) (nbits w : Nat) : State :=
  placeCommand (BitVec.ofNat 32 (w % 2 ^ nbits)) s

end Sys2Proof.Machine
end

