-- ==== Sys2Proof/Machine/Script.lean ====
section
/-! DEFINITION. The host-script notation of R73 (spec/30_encoding.md) as lists of inputs. A statement that computes
with a host variable takes the variable's value as its argument: the host's control flow is the host's own (R27, log 4). -/

namespace Sys2Proof.Machine.Script

/-- `wr OFF, V32`. -/
def wr (off : Nat) (v : Word32) : List HostEvent := [.write (Config.base + off) 4 v]

/-- `rd OFF -> v`. -/
def rd (off : Nat) : List HostEvent := [.read (Config.base + off) 4]

/-- The four word writes of a 128-bit operand from offset `off`, word 0 first. -/
def ld (off : Nat) (q : Value) : List HostEvent :=
  wr off (regWord q 0) ++ wr (off + 4) (regWord q 1) ++ wr (off + 8) (regWord q 2) ++ wr (off + 12) (regWord q 3)

/-- `ldA V128`. -/
def ldA (q : Value) : List HostEvent := ld 0x00 q

/-- `ldB V128`. -/
def ldB (q : Value) : List HostEvent := ld 0x10 q

/-- `ldBi N`: only B0 is written. -/
def ldBi (n : Int) : List HostEvent := wr 0x10 (BitVec.ofInt 32 n)

/-- `wait`. -/
def wait : List HostEvent := [.wait]

/-- `exec CMD`: the command word is written, then the host waits. -/
def exec (w : Word32) : List HostEvent := wr 0x40 w ++ wait

/-- `rdR -> v`: words 3 to 0. -/
def rdR : List HostEvent := rd 0x2C ++ rd 0x28 ++ rd 0x24 ++ rd 0x20

/-- `rdX -> v`: words 3 to 0. -/
def rdX : List HostEvent := rd 0x3C ++ rd 0x38 ++ rd 0x34 ++ rd 0x30

/-- `st -> v`: STATUS is read, the host keeps bits 2:0. -/
def st : List HostEvent := rd 0x44

/-- `movRA`, where `t` is the value the host read from R. -/
def movRA (t : Value) : List HostEvent := rdR ++ ldA t

/-- `movRB`, where `t` is the value the host read from R. -/
def movRB (t : Value) : List HostEvent := rdR ++ ldB t

end Sys2Proof.Machine.Script
end

