-- ==== Sys2Proof/Safety.lean ====
section
/-! DEFINITION. What a host program must not do, and which results it may rely on: the treatments 'fault' of
spec/93_implementation_defined.md (I8, I11 to I14), the hazard table R211 (spec/70_reset_and_hazards.md) and R210's
final states. The block itself completes, or ignores the access, as its rules say (log 7). -/

namespace Sys2Proof.Machine

/-- The ways a host program breaks a precondition. -/
inductive HostFault where
  /-- A byte, halfword, wider or misaligned access (I11, R44). -/
  | badAccess
  /-- A CMD write while BUSY = 1 (I14, R206). -/
  | cmdWhileBusy
  /-- A command whose operation code is unassigned (I8, R186). -/
  | unassignedOpcode
  /-- ND = 1 on a status-group command (I12, R185). -/
  | nullDestination
  /-- A non-canonical operand on a scale-reading command (I13, R187). -/
  | nonCanonical
  /-- An access outside the window (R55). -/
  | outsideWindow
deriving DecidableEq, Repr

/-- The commands that read A's scale, and so check it (R66 column "scale check", R187). -/
def readsScaleA : Instr → Bool
  | .cmpabs | .norm | .cmp | .lt | .le | .gt | .ge | .eq | .ne => true
  | .add _ | .sub _ | .mul _ | .div _ => true
  | .brnd _ | .round _ | .floor _ | .trunc _ => true
  | .zero | .getsign | .setsign _ | .getscale | .setscale | .getbit | .setbit _ | .shl | .shr | .pack _ | .iszero => false
  | .mcmp | .madd | .msub | .mmul | .mdiv | .mul10 | .div10 | .neg _ => false

/-- The commands that read B's scale, and so check it (R66 column "scale check", R187). -/
def readsScaleB : Instr → Bool
  | .cmpabs | .norm | .cmp | .lt | .le | .gt | .ge | .eq | .ne => true
  | .add _ | .sub _ | .mul _ | .div _ => true
  | .brnd _ | .round _ | .floor _ | .trunc _ => false
  | .zero | .getsign | .setsign _ | .getscale | .setscale | .getbit | .setbit _ | .shl | .shr | .pack _ | .iszero => false
  | .mcmp | .madd | .msub | .mmul | .mdiv | .mul10 | .div10 | .neg _ => false

/-- ND of a status-group command; false for every other command, which ignores it (R185). -/
def nullDestinationOf : Instr → Bool
  | .add nd | .sub nd | .mul nd | .div nd | .neg nd | .brnd nd | .round nd | .floor nd | .trunc nd => nd
  | .cmpabs | .norm | .cmp | .lt | .le | .gt | .ge | .eq | .ne => false
  | .zero | .getsign | .setsign _ | .getscale | .setscale | .getbit | .setbit _ | .shl | .shr | .pack _ | .iszero => false
  | .mcmp | .madd | .msub | .mmul | .mdiv | .mul10 | .div10 => false

/-- The precondition a command on these operands breaks, if any, in R182's order. -/
def commandFault (i : Instr) (a b : Value) : Option HostFault :=
  if nullDestinationOf i then some .nullDestination
  else if (readsScaleA i && !canon a) || (readsScaleB i && !canon b) then some .nonCanonical
  else none

/-- The precondition the latched command breaks, if any. -/
def latchFault (l : Latch) : Option HostFault :=
  match decodeFields l.opc l.v l.nd with
  | .ok i => commandFault i l.a l.b
  | .error _ => some .unassignedOpcode

/-- The precondition an input breaks, if any, in a state of the block. -/
def accessFault (e : HostEvent) (busy : Bool) : Option HostFault :=
  match e with
  | .idle | .wait | .reset => none
  | .read addr width =>
    match windowOffset addr with
    | none => some .outsideWindow
    | some off => if accessOk off width then none else some .badAccess
  | .write addr width _ =>
    match windowOffset addr with
    | none => some .outsideWindow
    | some off =>
      if accessOk off width then (if off = 0x40 ∧ busy then some .cmdWhileBusy else none) else some .badAccess

/-- The precondition the host program breaks in the next step, if any. -/
def hostFault (s : State) : Option HostFault :=
  if resetNext s then none
  else if completionDue s then latchFault s.latch
  else match s.script with
    | [] => none
    | e :: _ => accessFault e s.busy

/-- The next step breaks no precondition. -/
def SafeStep (s : State) : Prop := hostFault s = none

/-- A final state: no command is running (R210). -/
def final (s : State) : Bool := !s.busy

/-- A command has completed and its results may be read (R207). -/
def resultReady (s : State) : Bool := s.done && !s.busy

/-- The host may rely on R as this command's result: not after BIG, DIV_BY_ZERO (R196) or BAD_INPUT (R184). -/
def resultDefined (s : State) : Bool := resultReady s && (s.st == .ok || s.st == .small)

/-- What every run keeps (R23, R24, R30): BUSY and DONE are never both 1; both are 0 only with CMD, R, X and ST at their
reset values; while BUSY = 1 the latch holds the bits of CMD. -/
def ProtocolInv (s : State) : Prop :=
  ¬(s.busy = true ∧ s.done = true) ∧
  (s.busy = false → s.done = false → s.cmd = ⟨0, false, false⟩ ∧ s.r = 0 ∧ s.x = 0 ∧ s.st = .ok) ∧
  (s.busy = true → s.latch.opc = s.cmd.opc ∧ s.latch.v = s.cmd.v ∧ s.latch.nd = s.cmd.nd)

end Sys2Proof.Machine
end

