-- ==== Sys2Proof/Certificates/Slice0/Obligations.lean ====
section
/-! DEFINITION. The statements about the block, for the provers. Words used by several of them stand first, under
Sys2Proof.Claims. A statement that a command answers a next state writes that state out as the state before with the
fields that change, so it says the frame too. -/

open Sys2Proof Sys2Proof.Machine

namespace Sys2Proof.Claims

/-- The command completes with status OK, R = r and X = x; every other field but BUSY and DONE is as before (R183). -/
def AnswersOk (i : Instr) (s : State) (r x : Value) : Prop :=
  exec i s = .next { s with r := r, x := x, st := .ok, busy := false, done := true }

/-- The command completes with BAD_INPUT and keeps R and X (R184). -/
def AnswersBadInput (i : Instr) (s : State) : Prop :=
  exec i s = .next { s with st := .badInput, busy := false, done := true }

/-- The command completes with the given status and X, and R is some value, about which nothing is said (R196). The
draw counter may move (the model's own field, log 1). -/
def AnswersUnspecR (i : Instr) (s : State) (st : Status) (x : Value) : Prop :=
  ∃ r n, exec i s = .next { s with r := r, x := x, st := st, busy := false, done := true, draws := n }

/-- The command's operation code: every word with that OPC decodes to it, with V and ND from bits 6 and 31 (R66). -/
def OpcodeIs (opc : Nat) (f : Bool → Bool → Instr) : Prop :=
  ∀ w : Word32, w.toNat % 64 = opc → decode w = .ok (f (w.getLsbD 6) (w.getLsbD 31))

/-- The integer argument of a command: the two's-complement number in B[31:0] (R65). -/
def intArg (s : State) : Int := (s.latch.b.extractLsb' 0 32).toInt

/-- q is the integer nearest to m / 10^k, and even where two are equally near (R161). -/
def NearestEven (q m k : Nat) : Prop :=
  2 * (q * 10 ^ k) ≤ 2 * m + 10 ^ k ∧ 2 * m ≤ 2 * (q * 10 ^ k) + 10 ^ k ∧
    (2 * m = 2 * (q * 10 ^ k) + 10 ^ k ∨ 2 * m + 10 ^ k = 2 * (q * 10 ^ k) → q % 2 = 0)

/-- Normalisation of a and b completes: both working copies reach one scale (R121). -/
def NormCompletes (a b : Value) : Prop := scl (normalize a b).1 = scl (normalize a b).2

/-- The same state with other latched operands. -/
def withOperands (s : State) (a b : Value) : State := { s with latch := { s.latch with a := a, b := b } }

/-- Two words agree in mantissa, sign and scale; their reserved bits may differ (R63). -/
def SameFields (v w : Value) : Prop := mant v = mant w ∧ sgn v = sgn w ∧ scl v = scl w

/-- The operation codes R67 lists as unassigned. -/
def unassignedCodes (n : Nat) : Prop :=
  (0x0B ≤ n ∧ n ≤ 0x0F) ∨ n = 0x17 ∨ (0x21 ≤ n ∧ n ≤ 0x27) ∨ (0x2D ≤ n ∧ n ≤ 0x2F) ∨ (0x34 ≤ n ∧ n ≤ 0x3F)

/-- The bits of a command word its command reads: OPC, V for SETSIGN, SETBIT and PACK, ND for the status group (R69). -/
def readMask (w : Word32) : Word32 :=
  0x3F#32 ||| (if opcUsesV (wordOpc w) then 0x40#32 else 0#32) |||
    (if opcStatusGroup (wordOpc w) then 0x80000000#32 else 0#32)

/-- R120's loop `raise_scale` with its calls of `mul10` counted: the word it leaves and how many calls it made. -/
def raiseScaleCounting : Nat → Value → Value × Nat
  | 0, w => (w, 0)
  | k + 1, w =>
    if (mul10 (mant w)).2 then (w, 1)
    else
      let g := raiseScaleCounting k (withScale (withMant w (mul10 (mant w)).1) (scl w + 1))
      (g.1, g.2 + 1)

/-- The state with the given inputs still to come and one cycle of the running command's time passed (log 3). -/
def cyclePassed (s : State) (rest : List HostEvent) : State :=
  { s with script := rest, due := if s.busy then s.due - 1 else s.due }

/-- An input neither resets the block nor leaves the register window. -/
def quiet (e : HostEvent) : Bool := e != .reset && accessFault e true != some .outsideWindow

end Sys2Proof.Claims

open Sys2Proof.Claims

/-! ## Encodings -/

/-- Command words written out from R66's format, one of each family, and R71's examples; the expansions of R72's
pseudo-instructions. -/
def Obligations.SampleCommandWordsDecode : Prop :=
  decode 0x00000028#32 = .ok (.add false) ∧ decode 0x80000028#32 = .ok (.add true) ∧
  decode 0x00000042#32 = .ok (.setsign true) ∧ decode 0x00000009#32 = .ok (.pack false) ∧
  decode 0x00000046#32 = .ok (.setbit true) ∧ decode 0x00000014#32 = .ok .mdiv ∧
  decode 0x0000001A#32 = .ok .cmp ∧ decode 0x80000032#32 = .ok (.floor true) ∧
  encode Pseudo.abs.expand = 0x00000002#32 ∧ encode Pseudo.setneg.expand = 0x00000042#32 ∧
  encode Pseudo.clrbit.expand = 0x00000006#32 ∧ encode Pseudo.setbit1.expand = 0x00000046#32 ∧
  encode (Pseudo.mkdec false).expand = 0x00000009#32 ∧ encode (Pseudo.mkdec true).expand = 0x00000049#32

/-- Decode and encode agree both ways (R66, R69, R70): every well-formed command is decoded from its word, and a word
that decodes is its command's word but for the bits its command does not read. -/
def Obligations.DecodeAndEncodeAgree : Prop :=
  (∀ i : Instr, i.wellFormed = true → decode (encode i) = .ok i) ∧
  (∀ (w : Word32) (i : Instr), decode w = .ok i → encode i = w &&& readMask w)

/-- R67: exactly the listed operation codes are unassigned, and a command with one is accepted, as every command word
is, and completes with BAD_INPUT, R and X unchanged; bits 30:7 do not change decoding and read 0 in CMD; V and ND are
ignored where R67 says so. -/
def Obligations.UnassignedAndIgnoredBits : Prop :=
  (∀ w : Word32, decode w = .error (.unassignedOpcode (wordOpc w)) ↔ unassignedCodes (w.toNat % 64)) ∧
  (∀ (w : Word32) (s : State), s.busy = false →
    (memWrite 0x40 w s).busy = true ∧ (memWrite 0x40 w s).latch.opc = wordOpc w) ∧
  (∀ s : State, unassignedCodes s.latch.opc.toNat → completionDue s = true → resetNext s = false →
    step s = .next { s with st := .badInput, busy := false, done := true }) ∧
  (∀ w w' : Word32, w.toNat % 128 = w'.toNat % 128 → w.getLsbD 31 = w'.getLsbD 31 → decode w = decode w') ∧
  (∀ (w : Word32) (s : State), (memRead 0x40 (accept w s)).extractLsb' 7 24 = 0#24) ∧
  (∀ w : Word32, wordOpc w ≠ 0x02#6 → wordOpc w ≠ 0x06#6 → wordOpc w ≠ 0x09#6 →
    decode (w ^^^ 0x40#32) = decode w) ∧
  (∀ w : Word32, opcStatusGroup (wordOpc w) = false → decode (w ^^^ 0x80000000#32) = decode w)

/-- The well-formed written commands of R71 are exactly the written forms of the commands, each of one command only,
and a written command is assembled by R70's sum. -/
def Obligations.WrittenCommandsAreTheCommands : Prop :=
  (∀ c : Command, c.wellFormed = true ↔ ∃ i : Instr, i.written = c) ∧
  (∀ i j : Instr, i.written = j.written → i = j) ∧
  (∀ c : Command, c.assemble.toNat = c.nd.toNat * 2 ^ 31 + (c.v.getD false).toNat * 2 ^ 6 + c.opc.toNat)

/-! ## The packed word -/

/-- R60: where mantissa, scale, sign and the reserved bits stand in a word, and the masks on word 3. -/
def Obligations.PackedWordLayout : Prop :=
  ∀ w : Value,
    w.toNat = (sgn w).toNat * 2 ^ 127 + (w.extractLsb' 120 7).toNat * 2 ^ 120 + scl w * 2 ^ 112 +
      (w.extractLsb' 96 16).toNat * 2 ^ 96 + mant w ∧
    mant w = (regWord w 0).toNat + 2 ^ 32 * (regWord w 1).toNat + 2 ^ 64 * (regWord w 2).toNat ∧
    (sgn w = true ↔ regWord w 3 &&& 0x80000000#32 ≠ 0#32) ∧
    scl w = ((regWord w 3 &&& 0x00FF0000#32) >>> 16).toNat

/-- R46's interchange image: 16 bytes, byte k holds bits 8k+7:8k, and a value is found again from its image. -/
def Obligations.InterchangeImageRoundTrip : Prop :=
  ∀ w : Value, (image w).length = 16 ∧ ofImage (image w) = w ∧
    ∀ k j : Nat, k < 16 → j < 8 → ((image w).getD k 0).getLsbD j = w.getLsbD (8 * k + j)

/-! ## The register window -/

/-- R43 and R206: what a word write at each word-aligned offset of the window does. (`due` is the model's own field.) -/
def Obligations.WindowWriteEffects : Prop :=
  ∀ (s : State) (off : Nat) (v : Word32), off < 0x100 → off % 4 = 0 →
    ∃ t, busWrite (Config.base + off) 4 v s = .next t ∧
      (off < 0x10 → t = { s with a := t.a }) ∧
      (0x10 ≤ off → off < 0x20 → t = { s with b := t.b }) ∧
      (off < 0x20 → memRead off t = v ∧
        ∀ off' : Nat, off' < 0x100 → off' % 4 = 0 → off' ≠ off → memRead off' t = memRead off' s) ∧
      (0x20 ≤ off → off ≠ 0x40 → t = s) ∧
      (off = 0x40 → s.busy = true → t = s) ∧
      (off = 0x40 → s.busy = false →
        t = { s with
          cmd := ⟨v.extractLsb' 0 6, v.getLsbD 6, v.getLsbD 31⟩
          latch := ⟨v.extractLsb' 0 6, v.getLsbD 6, v.getLsbD 31, s.a, s.b⟩
          busy := true
          done := false
          due := t.due })

/-- R42: a word read returns the register word of R40, reserved offsets 0, and changes nothing but what the host has
got back, so that a second read returns the same; and step performs the read where it is the next input and no
completion is due. (`due` is the model's own field.) -/
def Obligations.WindowReadReturnsTheRegisterWord : Prop :=
  ∀ (s : State) (off : Nat), off < 0x100 → off % 4 = 0 →
    busRead (Config.base + off) 4 s = .next { s with replies := .data (memRead off s) :: s.replies } ∧
    busRead (Config.base + off) 4 { s with replies := .data (memRead off s) :: s.replies } =
      .next { s with replies := .data (memRead off s) :: .data (memRead off s) :: s.replies } ∧
    (∀ j < 32, off < 0x10 → (memRead off s).getLsbD j = s.a.getLsbD (8 * off + j)) ∧
    (∀ j < 32, 0x10 ≤ off → off < 0x20 → (memRead off s).getLsbD j = s.b.getLsbD (8 * (off - 0x10) + j)) ∧
    (∀ j < 32, 0x20 ≤ off → off < 0x30 → (memRead off s).getLsbD j = s.r.getLsbD (8 * (off - 0x20) + j)) ∧
    (∀ j < 32, 0x30 ≤ off → off < 0x40 → (memRead off s).getLsbD j = s.x.getLsbD (8 * (off - 0x30) + j)) ∧
    (off = 0x40 → memRead off s = cmdWord s.cmd) ∧ (off = 0x44 → memRead off s = statusWord s) ∧
    (0x48 ≤ off → memRead off s = 0) ∧
    (∀ rest, s.script = .read (Config.base + off) 4 :: rest → completionDue s = false →
      ∃ d, step s = .next { s with script := rest, due := d, replies := .data (memRead off s) :: s.replies })

/-- R44: an access that is not 32 bits wide, or not at a multiple of 4, gets a bus error and changes nothing; it is a
fault of the host program. Step answers such an input with the bus error. (`due` is the model's own field.) -/
def Obligations.BadAccessIsABusError : Prop :=
  ∀ (s : State) (off width : Nat) (v : Word32), off < 0x100 → (width ≠ 4 ∨ off % 4 ≠ 0) →
    busRead (Config.base + off) width s = .next { s with replies := .busError :: s.replies } ∧
    busWrite (Config.base + off) width v s = .next { s with replies := .busError :: s.replies } ∧
    (∀ busy, accessFault (.read (Config.base + off) width) busy = some .badAccess ∧
      accessFault (.write (Config.base + off) width v) busy = some .badAccess) ∧
    (∀ rest,
      s.script = .read (Config.base + off) width :: rest ∨ s.script = .write (Config.base + off) width v :: rest →
      completionDue s = false → ∃ d, step s = .next { s with script := rest, due := d, replies := .busError :: s.replies })

/-- The model's choice (log 8): an access at an address outside the window faults, and so does the step whose next
input it is. -/
def Obligations.AccessOutsideTheWindowFaults : Prop :=
  ∀ (s : State) (addr width : Nat) (v : Word32), addr < Config.base ∨ Config.base + 0x100 ≤ addr →
    busRead addr width s = .fault .outsideWindow ∧ busWrite addr width v s = .fault .outsideWindow ∧
    (∀ rest, s.script = .read addr width :: rest ∨ s.script = .write addr width v :: rest →
      completionDue s = false → step s = .fault .outsideWindow)

/-- The bits of the STATUS word (R24) and the numbers of the status codes (R25). -/
def Obligations.StatusWordLayout : Prop :=
  (∀ s : State, (statusWord s).extractLsb' 0 3 = statusCode s.st ∧ (statusWord s).extractLsb' 3 5 = 0#5 ∧
    (statusWord s).getLsbD 8 = s.busy ∧ (statusWord s).getLsbD 9 = s.done ∧
    (statusWord s).extractLsb' 10 22 = 0#22) ∧
  statusCode .ok = 0#3 ∧ statusCode .big = 1#3 ∧ statusCode .small = 2#3 ∧ statusCode .divByZero = 3#3 ∧
  statusCode .badInput = 4#3

/-- R23: an accepted command word is read back from CMD with bits 30:7 zero; a write while BUSY = 1 leaves CMD alone;
CMD reads 0 after reset. -/
def Obligations.CmdRegisterReadsBack : Prop :=
  (∀ (s : State) (v : Word32), s.busy = false →
    memRead 0x40 (memWrite 0x40 v s) = v &&& 0x8000007F#32 ∧ (memWrite 0x40 v s).busy = true ∧
    (memWrite 0x40 v s).cmd.opc.toNat = v.toNat % 64 ∧ (memWrite 0x40 v s).cmd.v = v.getLsbD 6 ∧
    (memWrite 0x40 v s).cmd.nd = v.getLsbD 31) ∧
  (∀ (s : State) (v : Word32), s.busy = true → memWrite 0x40 v s = s) ∧
  memRead 0x40 State.reset = 0

/-! ## Steps -/

/-- What a step does but for a reset. When the latched bits decode to i, the completion is due and no reset comes, step
is exec of i. When no completion is due it performs the next input on the state one cycle later (log 3): a bus read, a
bus write, nothing, or one poll of STATUS; with no input left only the cycle passes, and an idle block keeps its whole
state (R195). Such a step keeps R, X, ST and the draw counter (R26, R207), A and B but for the host's word writes (R22),
and CMD, the latch, BUSY and DONE unless a CMD write is accepted while BUSY = 0 (R26, R206). The clause about
`withFetchWord` is the model's choice (log 10): a word that decodes is placed, even while BUSY = 1, so that the next
step runs it. -/
def Obligations.StepRunsTheDecodedCommand : Prop :=
  (∀ (s : State) (i : Instr), resetNext s = false → completionDue s = true →
    decodeFields s.latch.opc s.latch.v s.latch.nd = .ok i → step s = exec i s) ∧
  (∀ (s : State) (w : Nat) (i : Instr), decodeTableWord 32 w = some i →
    step (s.withFetchWord 32 w) = exec i (s.withFetchWord 32 w)) ∧
  (∀ (s : State) (e : HostEvent) (rest : List HostEvent), s.script = e :: rest → completionDue s = false →
    (∀ addr width, e = .read addr width → step s = busRead addr width (cyclePassed s rest)) ∧
    (∀ addr width v, e = .write addr width v → step s = busWrite addr width v (cyclePassed s rest)) ∧
    (e = .idle → step s = .next (cyclePassed s rest)) ∧
    (e = .wait → step s = .next { cyclePassed s (if s.busy then .wait :: rest else rest) with
      replies := .data (statusWord s) :: s.replies })) ∧
  (∀ s : State, s.script = [] → completionDue s = false →
    step s = .next (cyclePassed s []) ∧ (s.busy = false → step s = .next s)) ∧
  (∀ s t : State, resetNext s = false → completionDue s = false → step s = .next t →
    t.r = s.r ∧ t.x = s.x ∧ t.st = s.st ∧ t.draws = s.draws ∧
    (t.a = s.a ∨ ∃ off v, off < 0x10 ∧ s.script.head? = some (.write (Config.base + off) 4 v)) ∧
    (t.b = s.b ∨ ∃ off v, 0x10 ≤ off ∧ off < 0x20 ∧ s.script.head? = some (.write (Config.base + off) 4 v)) ∧
    ((t.cmd = s.cmd ∧ t.latch = s.latch ∧ t.busy = s.busy ∧ t.done = s.done) ∨
      ∃ v, s.busy = false ∧ s.script.head? = some (.write (Config.base + 0x40) 4 v) ∧
        t.cmd = ⟨v.extractLsb' 0 6, v.getLsbD 6, v.getLsbD 31⟩ ∧
        t.latch = ⟨v.extractLsb' 0 6, v.getLsbD 6, v.getLsbD 31, s.a, s.b⟩ ∧ t.busy = true ∧ t.done = false))

/-- R200 and R201: the reset signal gives every register its reset value at once, also while a command runs; no
completion is due after it. -/
def Obligations.ResetSignalResetsAndAbandons : Prop :=
  ∀ (s : State) (rest : List HostEvent), s.script = .reset :: rest →
    ∃ t, step s = .next t ∧ t.a = 0 ∧ t.b = 0 ∧ t.r = 0 ∧ t.x = 0 ∧ t.cmd = ⟨0, false, false⟩ ∧ t.st = .ok ∧
      t.busy = false ∧ t.done = false ∧ t.script = rest ∧ completionDue t = false

/-- The state after reset (R32), and every window word of it. -/
def Obligations.ResetState : Prop :=
  State.reset.a = 0 ∧ State.reset.b = 0 ∧ State.reset.r = 0 ∧ State.reset.x = 0 ∧
  State.reset.cmd = ⟨0, false, false⟩ ∧ State.reset.st = .ok ∧ State.reset.busy = false ∧ State.reset.done = false ∧
  ∀ off : Nat, memRead off State.reset = 0

/-- The invariant holds after reset. -/
def Obligations.ProtocolInvAtReset : Prop := ProtocolInv State.reset

/-- Every step keeps the invariant (R23, R24, R30): BUSY and DONE never both 1; both 0 only with CMD, R, X and ST at
their reset values; the latch holds CMD's bits while BUSY = 1. -/
def Obligations.StepKeepsProtocolInv : Prop :=
  ∀ s t : State, ProtocolInv s → step s = .next t → ProtocolInv t

/-- The frame of every command (R183): exec answers a next state that differs only in R, X, ST, BUSY, DONE and the
draw counter, so A, B, CMD, the latch and every window word but those of R, X and STATUS are as before; on BAD_INPUT R
and X are too. -/
def Obligations.CommandFrame : Prop :=
  ∀ (i : Instr) (s : State), ∃ t, exec i s = .next t ∧
    t = { s with r := t.r, x := t.x, st := t.st, busy := false, done := true, draws := t.draws } ∧
    (∀ off : Nat, off < 0x20 ∨ (0x40 ≤ off ∧ off ≠ 0x44) → memRead off t = memRead off s) ∧
    (t.st = .badInput → t.r = s.r ∧ t.x = s.x) ∧
    (t.st ≠ .big → t.st ≠ .divByZero → t.draws = s.draws)

/-- R22: the block never writes A or B, and a command's results depend on the latched copies only: two states that
agree in the latch and the draw counter get the same ST, R and X, whatever their A, B and the rest (on BAD_INPUT each
keeps its own R and X). That R after BIG and DIV_BY_ZERO, and X after MDIV's DIV_BY_ZERO, are equal too is the model's
choice (log 1): an UNSPEC value is a function of the draw counter, and the counters are equal. -/
def Obligations.ResultsDependOnTheLatchOnly : Prop :=
  ∀ (i : Instr) (s s' : State), s.latch = s'.latch → s.draws = s'.draws →
    ∃ t t', exec i s = .next t ∧ exec i s' = .next t' ∧ t.a = s.a ∧ t.b = s.b ∧ t'.a = s'.a ∧ t'.b = s'.b ∧
      t.st = t'.st ∧ (t.st ≠ .badInput → t.r = t'.r ∧ t.x = t'.x)

/-- R209, R208: a running command completes. From any state with BUSY = 1 whose coming inputs neither reset the block
nor leave the window, `due` host cycles and one completion step later the command is done, with the CMD register and
the results it would have if it completed at once, whatever operand writes, CMD writes and reads come between. The
count of `due + 1` steps is the model's choice (log 3), and so is that the draw counter and an UNSPEC R or X are those of
completing at once (log 1). -/
def Obligations.RunningCommandCompletes : Prop :=
  ∀ s : State, s.busy = true → (∀ e ∈ s.script, quiet e = true) →
    ∃ t c, core.run (s.due + 1) s = .next t ∧ complete s = .next c ∧ t.busy = false ∧ t.done = true ∧
      t.cmd = s.cmd ∧ t.st = c.st ∧ t.draws = c.draws ∧ (c.st ≠ .badInput → t.r = c.r ∧ t.x = c.x) ∧
      (c.st = .badInput → t.r = s.r ∧ t.x = s.x)

/-- A whole transaction of R73's notation, for every `BASE` and `LAT`: load A, load B, write the command word, wait.
The block ends idle with DONE = 1, A and B as loaded, and ST, R and X those of the command on them. The count of
8 + LAT + 2 steps is the model's choice (log 3), and so is that an UNSPEC R or X is that of completing at once (log 1). -/
def Obligations.HostTransaction : Prop :=
  ∀ (s : State) (qa qb : Value) (w : Word32) (rest : List HostEvent), s.busy = false →
    s.script = Script.ldA qa ++ Script.ldB qb ++ Script.exec w ++ rest →
    ∃ t c, core.run (8 + Config.latency (wordOpc w) qa qb + 2) s = .next t ∧
      complete (accept w { s with a := qa, b := qb }) = .next c ∧
      t.a = qa ∧ t.b = qb ∧ t.cmd = ⟨wordOpc w, wordV w, wordNd w⟩ ∧ t.busy = false ∧ t.done = true ∧
      t.r = c.r ∧ t.x = c.x ∧ t.st = c.st ∧ t.script = rest

/-! ## Bit-field commands -/

/-- The four commands' operation codes and effects (R81, R82, R84, R91). That every word with operation code 0 is ZERO,
whatever its other bits, is the model's reading (log 14) of R67 and R69 against R81's words on a write of 0x00000000. -/
def Obligations.ZeroAndQueryCommands : Prop :=
  OpcodeIs 0x00 (fun _ _ => .zero) ∧ OpcodeIs 0x01 (fun _ _ => .getsign) ∧
  OpcodeIs 0x03 (fun _ _ => .getscale) ∧ OpcodeIs 0x0A (fun _ _ => .iszero) ∧ State.reset.busy = false ∧
  ∀ s : State,
    AnswersOk .zero s 0 0 ∧
    (∃ x, AnswersOk .getsign s 0 x ∧ x.toNat = s.latch.a.toNat / 2 ^ 127) ∧
    (∃ x, AnswersOk .getscale s 0 x ∧
      x.toNat = (let e := s.latch.a.toNat / 2 ^ 112 % 256; if e ≤ 28 then e else 0)) ∧
    (∃ x, AnswersOk .iszero s 0 x ∧ x.toNat = if s.latch.a.toNat % 2 ^ 96 = 0 then 1 else 0)

/-- R83: bit 127 is V, every other bit is A's. -/
def Obligations.SetsignWritesTheSignBitOnly : Prop :=
  OpcodeIs 0x02 (fun v _ => .setsign v) ∧
  ∀ (v : Bool) (s : State), ∃ r, AnswersOk (.setsign v) s r 0 ∧ r.getLsbD 127 = v ∧
    ∀ i < 127, r.getLsbD i = s.latch.a.getLsbD i

/-- R147: NEG inverts bit 127 alone, for every word, canonical or not; ND = 1 gives BAD_INPUT. NEG of NEG is the
identity. -/
def Obligations.NegInvertsTheSignBitOnly : Prop :=
  OpcodeIs 0x2C (fun _ nd => .neg nd) ∧
  (∀ s : State, AnswersBadInput (.neg true) s) ∧
  ∀ s : State, ∃ r, AnswersOk (.neg false) s r 0 ∧ r.getLsbD 127 = !s.latch.a.getLsbD 127 ∧
    (∀ i < 127, r.getLsbD i = s.latch.a.getLsbD i) ∧
    AnswersOk (.neg false) (withOperands s r s.latch.b) s.latch.a 0

/-- R85, with R80's clamp: bits 119:112 are the integer argument clamped to 0..28, every other bit is A's. -/
def Obligations.SetscaleClampsTheIntegerArgument : Prop :=
  OpcodeIs 0x04 (fun _ _ => .setscale) ∧
  ∀ s : State, ∃ r, AnswersOk .setscale s r 0 ∧ (scl r : Int) = max 0 (min (intArg s) 28) ∧
    ∀ i : Nat, i < 112 ∨ (120 ≤ i ∧ i < 128) → r.getLsbD i = s.latch.a.getLsbD i

/-- R86 and R87: one mantissa bit read or replaced; out of 0..95 a read gives 0 and a write gives A verbatim. -/
def Obligations.MantissaBitReadAndWrite : Prop :=
  OpcodeIs 0x05 (fun _ _ => .getbit) ∧ OpcodeIs 0x06 (fun v _ => .setbit v) ∧
  (∀ (s : State) (n : Nat), intArg s = n → n ≤ 95 →
    (∃ x, AnswersOk .getbit s 0 x ∧ x.toNat = (s.latch.a.getLsbD n).toNat) ∧
    ∀ v : Bool, ∃ r, AnswersOk (.setbit v) s r 0 ∧
      ∀ i < 128, r.getLsbD i = if i = n then v else s.latch.a.getLsbD i) ∧
  (∀ s : State, intArg s < 0 ∨ 95 < intArg s →
    AnswersOk .getbit s 0 0 ∧ ∀ v : Bool, AnswersOk (.setbit v) s s.latch.a 0)

/-- R88 and R89: the mantissa moves one place, a zero bit enters, the bit that leaves is in X, and word 3 is A's. -/
def Obligations.MantissaShifts : Prop :=
  OpcodeIs 0x07 (fun _ _ => .shl) ∧ OpcodeIs 0x08 (fun _ _ => .shr) ∧
  ∀ s : State,
    (∃ r x, AnswersOk .shl s r x ∧ x.toNat = (s.latch.a.getLsbD 95).toNat ∧ r.getLsbD 0 = false ∧
      (∀ i < 95, r.getLsbD (i + 1) = s.latch.a.getLsbD i) ∧
      ∀ i : Nat, 96 ≤ i → i < 128 → r.getLsbD i = s.latch.a.getLsbD i) ∧
    (∃ r x, AnswersOk .shr s r x ∧ x.toNat = (s.latch.a.getLsbD 0).toNat ∧ r.getLsbD 95 = false ∧
      (∀ i < 95, r.getLsbD i = s.latch.a.getLsbD (i + 1)) ∧
      ∀ i : Nat, 96 ≤ i → i < 128 → r.getLsbD i = s.latch.a.getLsbD i)

/-- R90: PACK builds the word from A's mantissa, the clamped integer argument and V; A's word 3 is ignored and the
reserved bits are 0. -/
def Obligations.PackBuildsTheWord : Prop :=
  OpcodeIs 0x09 (fun v _ => .pack v) ∧
  ∀ (v : Bool) (s : State), ∃ r, AnswersOk (.pack v) s r 0 ∧
    (r.toNat : Int) = v.toNat * 2 ^ 127 + max 0 (min (intArg s) 28) * 2 ^ 112 + (s.latch.a.toNat % 2 ^ 96 : Nat)

/-! ## Magnitude primitives -/

/-- R107, R108, R109: the three-way compare of the mantissas alone, the sum modulo 2^96 and its carry, the difference
modulo 2^96 and its borrow. -/
def Obligations.MagnitudeCompareAddSubtract : Prop :=
  OpcodeIs 0x10 (fun _ _ => .mcmp) ∧ OpcodeIs 0x11 (fun _ _ => .madd) ∧ OpcodeIs 0x12 (fun _ _ => .msub) ∧
  ∀ s : State,
    AnswersOk .mcmp s 0
      (if mant s.latch.a < mant s.latch.b then 0xFFFFFFFF#128 else if mant s.latch.a = mant s.latch.b then 0 else 1) ∧
    (∃ r x, AnswersOk .madd s r x ∧ r.toNat < 2 ^ 96 ∧ x.toNat ≤ 1 ∧
      r.toNat + 2 ^ 96 * x.toNat = mant s.latch.a + mant s.latch.b) ∧
    (∃ r x, AnswersOk .msub s r x ∧ r.toNat < 2 ^ 96 ∧ x.toNat ≤ 1 ∧
      mant s.latch.b + r.toNat = mant s.latch.a + 2 ^ 96 * x.toNat)

/-- R110: R and X are the low and the high 96 bits of the exact product. -/
def Obligations.MmulGivesTheFullProduct : Prop :=
  OpcodeIs 0x13 (fun _ _ => .mmul) ∧
  ∀ s : State, ∃ r x, AnswersOk .mmul s r x ∧ r.toNat < 2 ^ 96 ∧ x.toNat < 2 ^ 96 ∧
    r.toNat + 2 ^ 96 * x.toNat = mant s.latch.a * mant s.latch.b

/-- R111: quotient and remainder; a zero divisor mantissa gives DIV_BY_ZERO, whatever A is, with R and X some values. -/
def Obligations.MdivQuotientAndRemainder : Prop :=
  OpcodeIs 0x14 (fun _ _ => .mdiv) ∧
  (∀ s : State, mant s.latch.b ≠ 0 → ∃ r x, AnswersOk .mdiv s r x ∧ x.toNat < mant s.latch.b ∧
    mant s.latch.a = mant s.latch.b * r.toNat + x.toNat) ∧
  (∀ s : State, mant s.latch.b = 0 → ∃ x, AnswersUnspecR .mdiv s .divByZero x)

/-- R112 and R113: ten times the mantissa, or the mantissa and the overflow bit; one digit drop. -/
def Obligations.Mul10AndDiv10 : Prop :=
  OpcodeIs 0x15 (fun _ _ => .mul10) ∧ OpcodeIs 0x16 (fun _ _ => .div10) ∧
  ∀ s : State,
    (∃ r, (if mant s.latch.a * 10 ≤ 2 ^ 96 - 1 then AnswersOk .mul10 s r 0 ∧ r.toNat = mant s.latch.a * 10
      else AnswersOk .mul10 s r 1 ∧ r.toNat = mant s.latch.a)) ∧
    (∃ r x, AnswersOk .div10 s r x ∧ x.toNat < 10 ∧ mant s.latch.a = 10 * r.toNat + x.toNat)

/-! ## Compare and normalise -/

/-- R124 with R122: the mantissas after normalisation decide, signs are ignored. -/
def Obligations.CmpabsComparesNormalisedMantissas : Prop :=
  OpcodeIs 0x18 (fun _ _ => .cmpabs) ∧
  (∀ s : State, canon s.latch.a = false ∨ canon s.latch.b = false → AnswersBadInput .cmpabs s) ∧
  ∀ s : State, canon s.latch.a = true → canon s.latch.b = true →
    AnswersOk .cmpabs s 0
      (let p := normalize s.latch.a s.latch.b
       if mant p.1 < mant p.2 then 0xFFFFFFFF#128 else if mant p.1 = mant p.2 then 0 else 1)

/-- R126 with R123: the signed three-way compare. -/
def Obligations.CmpFollowsTheSignedOrder : Prop :=
  OpcodeIs 0x1A (fun _ _ => .cmp) ∧
  (∀ s : State, canon s.latch.a = false ∨ canon s.latch.b = false → AnswersBadInput .cmp s) ∧
  ∀ s : State, canon s.latch.a = true → canon s.latch.b = true →
    AnswersOk .cmp s 0
      (let a := s.latch.a
       let b := s.latch.b
       let p := normalize a b
       let less := 0xFFFFFFFF#128
       let greater := 1#128
       if mant a = 0 ∧ mant b = 0 then 0
       else if mant a = 0 then (if sgn b then greater else less)
       else if mant b = 0 then (if sgn a then less else greater)
       else if sgn a ≠ sgn b then (if sgn a then less else greater)
       else if mant p.1 = mant p.2 then 0
       else if mant p.1 < mant p.2 then (if sgn a then greater else less)
       else if sgn a then less else greater)

/-- R127 to R132: the six predicates read CMP's answer c, for all canonical operands, early stop included. -/
def Obligations.PredicatesReadCmp : Prop :=
  OpcodeIs 0x1B (fun _ _ => .lt) ∧ OpcodeIs 0x1C (fun _ _ => .le) ∧ OpcodeIs 0x1D (fun _ _ => .gt) ∧
  OpcodeIs 0x1E (fun _ _ => .ge) ∧ OpcodeIs 0x1F (fun _ _ => .eq) ∧ OpcodeIs 0x20 (fun _ _ => .ne) ∧
  (∀ s : State, canon s.latch.a = false ∨ canon s.latch.b = false →
    ∀ i ∈ [Instr.lt, .le, .gt, .ge, .eq, .ne], AnswersBadInput i s) ∧
  ∀ s : State, canon s.latch.a = true → canon s.latch.b = true →
    ∃ c : Int, -1 ≤ c ∧ c ≤ 1 ∧ AnswersOk .cmp s 0 ((BitVec.ofInt 32 c).setWidth 128) ∧
      AnswersOk .lt s 0 (if c = -1 then 1 else 0) ∧ AnswersOk .le s 0 (if c ≤ 0 then 1 else 0) ∧
      AnswersOk .gt s 0 (if c = 1 then 1 else 0) ∧ AnswersOk .ge s 0 (if 0 ≤ c then 1 else 0) ∧
      AnswersOk .eq s 0 (if c = 0 then 1 else 0) ∧ AnswersOk .ne s 0 (if c ≠ 0 then 1 else 0)

/-- Where normalisation completes, or the signs or a zero decide, CMP is the exact order of the two values, and where
it completes CMPABS is the exact order of their magnitudes. -/
def Obligations.CompareIsExactWhenNormalisationCompletes : Prop :=
  ∀ s : State, canon s.latch.a = true → canon s.latch.b = true →
    (NormCompletes s.latch.a s.latch.b ∨ mant s.latch.a = 0 ∨ mant s.latch.b = 0 ∨ sgn s.latch.a ≠ sgn s.latch.b →
      AnswersOk .cmp s 0
        (if value s.latch.a < value s.latch.b then 0xFFFFFFFF#128
         else if value s.latch.a = value s.latch.b then 0 else 1)) ∧
    (NormCompletes s.latch.a s.latch.b →
      AnswersOk .cmpabs s 0
        (if |value s.latch.a| < |value s.latch.b| then 0xFFFFFFFF#128
         else if |value s.latch.a| = |value s.latch.b| then 0 else 1))

/-- R133: early stop happens only to an operand that is truly the larger in magnitude; the block may still answer 0, as
in R133's example, or -1. -/
def Obligations.EarlyStopOnExtremeMagnitudes : Prop :=
  (∀ a b : Value, canon a = true → canon b = true →
    (scl (normalize a b).1 < scl (normalize a b).2 →
      |value b| < |value a| ∧ (2 ^ 96 - 1 : ℚ) < |value a| * 10 ^ scl b) ∧
    (scl (normalize a b).2 < scl (normalize a b).1 →
      |value a| < |value b| ∧ (2 ^ 96 - 1 : ℚ) < |value b| * 10 ^ scl a)) ∧
  (∀ s : State, s.latch.a = pack false 0 (2 ^ 96 - 1) → s.latch.b = pack false 1 (2 ^ 96 - 1) →
    |value s.latch.a| = 10 * |value s.latch.b| ∧ AnswersOk .cmpabs s 0 0 ∧ AnswersOk .eq s 0 1 ∧
      AnswersOk .gt s 0 0) ∧
  (∀ s : State, s.latch.a = pack false 0 (10 ^ 28) → s.latch.b = pack false 1 (2 ^ 96 - 1) →
    |value s.latch.b| < |value s.latch.a| ∧ AnswersOk .cmpabs s 0 0xFFFFFFFF#128)

/-- R125 with R120: NORM's results have the operands' values, signs and reserved bits; the operand with the larger
scale is verbatim; the other reaches that scale or stops where one more times ten would not fit in 96 bits. -/
def Obligations.NormAlignsScales : Prop :=
  OpcodeIs 0x19 (fun _ _ => .norm) ∧
  (∀ s : State, canon s.latch.a = false ∨ canon s.latch.b = false → AnswersBadInput .norm s) ∧
  ∀ s : State, canon s.latch.a = true → canon s.latch.b = true →
    ∃ r x, AnswersOk .norm s r x ∧ value r = value s.latch.a ∧ value x = value s.latch.b ∧
      scl s.latch.a ≤ scl r ∧ scl s.latch.b ≤ scl x ∧
      scl r ≤ max (scl s.latch.a) (scl s.latch.b) ∧ scl x ≤ max (scl s.latch.a) (scl s.latch.b) ∧
      (scl s.latch.b ≤ scl s.latch.a → r = s.latch.a) ∧ (scl s.latch.a ≤ scl s.latch.b → x = s.latch.b) ∧
      (∀ i : Nat, 96 ≤ i → i < 112 ∨ (120 ≤ i ∧ i < 128) →
        r.getLsbD i = s.latch.a.getLsbD i ∧ x.getLsbD i = s.latch.b.getLsbD i) ∧
      (scl r = scl x ∨ (scl r < scl x ∧ 2 ^ 96 ≤ mant r * 10) ∨ (scl x < scl r ∧ 2 ^ 96 ≤ mant x * 10))

/-- R121, its five properties. The loops with their calls of `mul10` counted leave the words of `normalize`, and the
calls are the scale steps made, and one more where the loop stops early. -/
def Obligations.NormalizeProperties : Prop :=
  ∀ a b : Value, canon a = true → canon b = true →
    (∃ m n, raiseScaleCounting (scl b - scl a) a = ((normalize a b).1, m) ∧
      raiseScaleCounting (scl a - scl b) b = ((normalize a b).2, n) ∧
      m + n = (scl (normalize a b).1 - scl a) + (scl (normalize a b).2 - scl b) +
        (if scl (normalize a b).1 = scl (normalize a b).2 then 0 else 1) ∧
      (m + n : Int) ≤ |(scl a : Int) - scl b| ∧ |(scl a : Int) - scl b| ≤ 28) ∧
    value (normalize a b).1 = value a ∧ value (normalize a b).2 = value b ∧
    ((scl (normalize a b).1 = max (scl a) (scl b) ∧ scl (normalize a b).2 = max (scl a) (scl b)) ∨
      (scl (normalize a b).1 < scl b ∧ (mul10 (mant (normalize a b).1)).2 = true) ∨
      (scl (normalize a b).2 < scl a ∧ (mul10 (mant (normalize a b).2)).2 = true)) ∧
    normalize (normalize a b).1 (normalize a b).2 = normalize a b ∧
    (mant a = 0 → scl b ≤ scl (normalize a b).1) ∧ (mant b = 0 → scl a ≤ scl (normalize a b).2)

/-! ## Arithmetic -/

/-- R141 with R140: ADD's checks, pass-throughs, sums, differences and BIG, for all operands. -/
def Obligations.AddResult : Prop :=
  OpcodeIs 0x28 (fun _ nd => .add nd) ∧
  (∀ s : State, AnswersBadInput (.add true) s) ∧
  (∀ s : State, canon s.latch.a = false ∨ canon s.latch.b = false → AnswersBadInput (.add false) s) ∧
  ∀ s : State, canon s.latch.a = true → canon s.latch.b = true →
    let a := s.latch.a
    let b := s.latch.b
    let p := normalize a b
    if mant a = 0 then AnswersOk (.add false) s b 0
    else if mant b = 0 then AnswersOk (.add false) s a 0
    else if sgn a = sgn b then
      if mant p.1 + mant p.2 < 2 ^ 96 then
        ∃ r, AnswersOk (.add false) s r 0 ∧
          r.toNat = (sgn a).toNat * 2 ^ 127 + scl p.1 * 2 ^ 112 + (mant p.1 + mant p.2)
      else AnswersUnspecR (.add false) s .big 0
    else if mant p.2 < mant p.1 then
      ∃ r, AnswersOk (.add false) s r 0 ∧
        r.toNat = (sgn a).toNat * 2 ^ 127 + scl p.1 * 2 ^ 112 + (mant p.1 - mant p.2)
    else if mant p.1 < mant p.2 then
      ∃ r, AnswersOk (.add false) s r 0 ∧
        r.toNat = (sgn b).toNat * 2 ^ 127 + scl p.1 * 2 ^ 112 + (mant p.2 - mant p.1)
    else ∃ r, AnswersOk (.add false) s r 0 ∧ r.toNat = scl p.1 * 2 ^ 112

/-- R142: SUB is ADD on B with its sign bit inverted: the same status and X, and all else unless the status is BIG (R is
then UNSPEC); a zero A gives that word, a zero B gives A; operands of opposite signs whose normalised magnitudes carry
out of bit 95 give BIG. -/
def Obligations.SubIsAddOfTheNegated : Prop :=
  OpcodeIs 0x29 (fun _ nd => .sub nd) ∧
  (∀ s : State, AnswersBadInput (.sub true) s) ∧
  (∀ s : State, canon s.latch.a = false ∨ canon s.latch.b = false → AnswersBadInput (.sub false) s) ∧
  ∀ s : State, ∃ nb t u, nb.getLsbD 127 = !s.latch.b.getLsbD 127 ∧ (∀ i < 127, nb.getLsbD i = s.latch.b.getLsbD i) ∧
    exec (.sub false) s = .next t ∧ exec (.add false) (withOperands s s.latch.a nb) = .next u ∧
    u.st = t.st ∧ u.x = t.x ∧ (t.st ≠ .big → u = withOperands t s.latch.a nb) ∧
    (canon s.latch.a = true → canon s.latch.b = true → mant s.latch.a = 0 → AnswersOk (.sub false) s nb 0) ∧
    (canon s.latch.a = true → canon s.latch.b = true → mant s.latch.a ≠ 0 → mant s.latch.b = 0 →
      AnswersOk (.sub false) s s.latch.a 0) ∧
    (canon s.latch.a = true → canon s.latch.b = true → mant s.latch.a ≠ 0 → mant s.latch.b ≠ 0 →
      sgn s.latch.a ≠ sgn s.latch.b →
      2 ^ 96 ≤ mant (normalize s.latch.a s.latch.b).1 + mant (normalize s.latch.a s.latch.b).2 →
      AnswersUnspecR (.sub false) s .big 0)

/-- Where normalisation completes and the magnitudes do not carry out of bit 95, ADD and SUB are the exact rational
sum and difference, zero operands included. -/
def Obligations.AddAndSubAreExact : Prop :=
  ∀ s : State, canon s.latch.a = true → canon s.latch.b = true → NormCompletes s.latch.a s.latch.b →
    ((sgn s.latch.a = sgn s.latch.b →
        mant (normalize s.latch.a s.latch.b).1 + mant (normalize s.latch.a s.latch.b).2 < 2 ^ 96) →
      ∃ r, AnswersOk (.add false) s r 0 ∧ value r = value s.latch.a + value s.latch.b) ∧
    ((sgn s.latch.a ≠ sgn s.latch.b →
        mant (normalize s.latch.a s.latch.b).1 + mant (normalize s.latch.a s.latch.b).2 < 2 ^ 96) →
      ∃ r, AnswersOk (.sub false) s r 0 ∧ value r = value s.latch.a - value s.latch.b)

/-- R143 and R144: MUL's checks, zero short-circuit, BIG, exact product, and the half-even integer of the product where
the scales sum to more than 28. -/
def Obligations.MulResult : Prop :=
  OpcodeIs 0x2A (fun _ nd => .mul nd) ∧
  (∀ s : State, AnswersBadInput (.mul true) s) ∧
  (∀ s : State, canon s.latch.a = false ∨ canon s.latch.b = false → AnswersBadInput (.mul false) s) ∧
  ∀ s : State, canon s.latch.a = true → canon s.latch.b = true →
    let a := s.latch.a
    let b := s.latch.b
    if mant a = 0 ∨ mant b = 0 then AnswersOk (.mul false) s 0 0
    else if 2 ^ 96 ≤ mant a * mant b then AnswersUnspecR (.mul false) s .big 0
    else if scl a + scl b ≤ 28 then
      ∃ r, AnswersOk (.mul false) s r 0 ∧ value r = value a * value b ∧
        r.toNat = (sgn a ^^ sgn b).toNat * 2 ^ 127 + (scl a + scl b) * 2 ^ 112 + mant a * mant b
    else
      ∃ r q, AnswersOk (.mul false) s r 0 ∧ r.toNat = (sgn a ^^ sgn b).toNat * 2 ^ 127 + q ∧ q ≤ 1 ∧
        NearestEven q (mant a * mant b) (scl a + scl b)

/-- R145 and R146: DIV's checks, zero divisor before zero dividend, the SMALL guard, the quotient at scale 0 and the
remainder with the dividend's sign and scale; and when the dividend's scale after normalisation is 28. -/
def Obligations.DivResult : Prop :=
  OpcodeIs 0x2B (fun _ nd => .div nd) ∧
  (∀ s : State, AnswersBadInput (.div true) s) ∧
  (∀ s : State, canon s.latch.a = false ∨ canon s.latch.b = false → AnswersBadInput (.div false) s) ∧
  ∀ s : State, canon s.latch.a = true → canon s.latch.b = true →
    let a := s.latch.a
    let b := s.latch.b
    let p := normalize a b
    if mant b = 0 then AnswersUnspecR (.div false) s .divByZero 0
    else if mant a = 0 then AnswersOk (.div false) s 0 0
    else ∃ q m, mant p.1 = mant p.2 * q + m ∧ m < mant p.2 ∧
      (scl p.1 = 28 ↔ scl a = 28 ∨ (scl b = 28 ∧ NormCompletes a b)) ∧
      if 0 < q ∧ q < 2 ^ 32 ∧ scl p.1 = 28 then
        exec (.div false) s = .next { s with r := 0, x := 0, st := .small, busy := false, done := true }
      else ∃ r x, AnswersOk (.div false) s r x ∧ r.toNat = (sgn a ^^ sgn b).toNat * 2 ^ 127 + q ∧
        x.toNat = (sgn a).toNat * 2 ^ 127 + scl p.1 * 2 ^ 112 + m

/-- The division identity on values: where normalisation completes and DIV ends with OK on non-zero operands, A is B
times R plus X, R is an integer and |X| < |B|. -/
def Obligations.DivisionIdentity : Prop :=
  ∀ (s t : State), canon s.latch.a = true → canon s.latch.b = true → NormCompletes s.latch.a s.latch.b →
    exec (.div false) s = .next t → t.st = .ok →
    value s.latch.a = value s.latch.b * value t.r + value t.x ∧ |value t.x| < |value s.latch.b| ∧ scl t.r = 0

/-- R148's laws: 1 (a zero second operand leaves a non-zero A as it is, bitwise; two zeros are the case R141 and R142
decide otherwise, log 13), 2 (ADD commutes, bitwise, unless both are zero), 3 (by value), 4 and 5; and SUB ends in the
state of ADD on B with its sign bit inverted, after BIG too, where the equal R and draw counter are the model's choice
(log 1). -/
def Obligations.ArithmeticLaws : Prop :=
  (∀ s : State, canon s.latch.a = true → canon s.latch.b = true → mant s.latch.a ≠ 0 → mant s.latch.b = 0 →
    AnswersOk (.add false) s s.latch.a 0 ∧ AnswersOk (.sub false) s s.latch.a 0) ∧
  (∀ s : State, canon s.latch.a = true → canon s.latch.b = true → NormCompletes s.latch.a s.latch.b →
    ¬(mant s.latch.a = 0 ∧ mant s.latch.b = 0) →
    (sgn s.latch.a = sgn s.latch.b →
      mant (normalize s.latch.a s.latch.b).1 + mant (normalize s.latch.a s.latch.b).2 < 2 ^ 96) →
    ∃ r, AnswersOk (.add false) s r 0 ∧ AnswersOk (.add false) (withOperands s s.latch.b s.latch.a) r 0) ∧
  (∀ s : State, canon s.latch.a = true → canon s.latch.b = true → NormCompletes s.latch.a s.latch.b →
    (sgn s.latch.a ≠ sgn s.latch.b →
      mant (normalize s.latch.a s.latch.b).1 + mant (normalize s.latch.a s.latch.b).2 < 2 ^ 96) →
    ∃ r r' n, AnswersOk (.sub false) s r 0 ∧ AnswersOk (.sub false) (withOperands s s.latch.b s.latch.a) r' 0 ∧
      AnswersOk (.neg false) (withOperands s r' s.latch.b) n 0 ∧ value r = value n) ∧
  (∀ s : State, canon s.latch.a = true → canon s.latch.b = true →
    (mant s.latch.b = 0 → AnswersOk (.mul false) s 0 0) ∧
    (mant s.latch.a = 0 → mant s.latch.b ≠ 0 → AnswersOk (.div false) s 0 0) ∧
    (mant s.latch.b = 0 → ∃ t, exec (.div false) s = .next t ∧ t.st = .divByZero)) ∧
  (∀ s : State, ∃ nb t, nb.getLsbD 127 = !s.latch.b.getLsbD 127 ∧ (∀ i < 127, nb.getLsbD i = s.latch.b.getLsbD i) ∧
    exec (.sub false) s = .next t ∧
    exec (.add false) (withOperands s s.latch.a nb) = .next (withOperands t s.latch.a nb))

/-! ## Rounding -/

/-- R162: BRND gives the nearest integer, ties to even, with A's sign at scale 0. -/
def Obligations.BrndRoundsHalfEven : Prop :=
  OpcodeIs 0x30 (fun _ nd => .brnd nd) ∧
  (∀ s : State, AnswersBadInput (.brnd true) s) ∧
  (∀ s : State, canon s.latch.a = false → AnswersBadInput (.brnd false) s) ∧
  ∀ s : State, canon s.latch.a = true → ∃ r q, AnswersOk (.brnd false) s r 0 ∧
    r.toNat = (sgn s.latch.a).toNat * 2 ^ 127 + q ∧ q < 2 ^ 96 ∧ NearestEven q (mant s.latch.a) (scl s.latch.a)

/-- R163: ROUND gives the nearest integer, ties away from zero, with A's sign at scale 0. -/
def Obligations.RoundRoundsHalfAwayFromZero : Prop :=
  OpcodeIs 0x31 (fun _ nd => .round nd) ∧
  (∀ s : State, AnswersBadInput (.round true) s) ∧
  (∀ s : State, canon s.latch.a = false → AnswersBadInput (.round false) s) ∧
  ∀ s : State, canon s.latch.a = true → ∃ r, AnswersOk (.round false) s r 0 ∧
    r.toNat = (sgn s.latch.a).toNat * 2 ^ 127 +
      (2 * mant s.latch.a + 10 ^ scl s.latch.a) / (2 * 10 ^ scl s.latch.a)

/-- R164: FLOOR gives the largest integer not above the value, with A's sign at scale 0. -/
def Obligations.FloorIsTheLargestIntegerBelow : Prop :=
  OpcodeIs 0x32 (fun _ nd => .floor nd) ∧
  (∀ s : State, AnswersBadInput (.floor true) s) ∧
  (∀ s : State, canon s.latch.a = false → AnswersBadInput (.floor false) s) ∧
  ∀ s : State, canon s.latch.a = true → ∃ r q, AnswersOk (.floor false) s r 0 ∧
    r.toNat = (sgn s.latch.a).toNat * 2 ^ 127 + q ∧ q < 2 ^ 96 ∧ value r = (⌊value s.latch.a⌋ : ℚ)

/-- R165: TRUNC drops the fractional digits, with A's sign at scale 0. -/
def Obligations.TruncDropsTheFraction : Prop :=
  OpcodeIs 0x33 (fun _ nd => .trunc nd) ∧
  (∀ s : State, AnswersBadInput (.trunc true) s) ∧
  (∀ s : State, canon s.latch.a = false → AnswersBadInput (.trunc false) s) ∧
  ∀ s : State, canon s.latch.a = true → ∃ r, AnswersOk (.trunc false) s r 0 ∧
    r.toNat = (sgn s.latch.a).toNat * 2 ^ 127 + mant s.latch.a / 10 ^ scl s.latch.a

/-- R166: what the four rounding commands have in common. -/
def Obligations.RoundingCommonProperties : Prop :=
  ∀ s : State, canon s.latch.a = true →
    (∀ i ∈ [Instr.brnd false, .round false, .floor false, .trunc false],
      ∃ r, AnswersOk i s r 0 ∧ scl r = 0 ∧ mant r ≤ mant s.latch.a ∧
        (scl s.latch.a = 0 → r = pack (sgn s.latch.a) 0 (mant s.latch.a))) ∧
    (sgn s.latch.a = false ∨ mant s.latch.a = 0 →
      ∃ r, AnswersOk (.floor false) s r 0 ∧ AnswersOk (.trunc false) s r 0) ∧
    (∀ i ∈ [Instr.brnd false, .round false, .trunc false],
      ∃ r, AnswersOk i s r 0 ∧
        AnswersOk i (withOperands s (flipSign s.latch.a) s.latch.b) (flipSign r) 0)

/-! ## Status -/

/-- R185: ND = 1 ends every command of the status group with BAD_INPUT, whatever its operands, and every other command
ignores ND. -/
def Obligations.NullDestinationIsBadInput : Prop :=
  (∀ (s : State), ∀ i ∈ [Instr.add true, .sub true, .mul true, .div true, .neg true, .brnd true, .round true,
    .floor true, .trunc true], AnswersBadInput i s) ∧
  (∀ w : Word32, opcStatusGroup (wordOpc w) = false → decode (w ^^^ 0x80000000#32) = decode w)

/-- R187: a non-canonical operand ends a scale-reading command with BAD_INPUT. -/
def Obligations.NonCanonicalOperandIsBadInput : Prop :=
  (∀ (s : State) (nd : Bool), canon s.latch.a = false ∨ canon s.latch.b = false →
    ∀ i ∈ [Instr.cmpabs, .norm, .cmp, .lt, .le, .gt, .ge, .eq, .ne, .add nd, .sub nd, .mul nd, .div nd],
      AnswersBadInput i s) ∧
  (∀ (s : State) (nd : Bool), canon s.latch.a = false →
    ∀ i ∈ [Instr.brnd nd, .round nd, .floor nd, .trunc nd], AnswersBadInput i s)

/-- R196 and the commands column of R180: which commands end with which code, and what R and X are then. -/
def Obligations.ErrorPathOutputs : Prop :=
  ∀ (i : Instr) (s t : State), exec i s = .next t →
    (t.st = .big → (i = .add false ∨ i = .sub false ∨ i = .mul false) ∧ t.x = 0) ∧
    (t.st = .small → i = .div false ∧ t.r = 0 ∧ t.x = 0) ∧
    (t.st = .divByZero → (i = .div false ∧ t.x = 0) ∨ i = .mdiv) ∧
    (t.st = .badInput → t.r = s.r ∧ t.x = s.x)

/-- A command that no result bit of which may depend on reserved bits (R63): two runs whose operands differ in reserved
bits only end with the same status, and R and X agree in mantissa, sign and scale. For UNSPEC values that is the model's
choice (log 1): the two draw counters are equal, so the draws are. -/
def Obligations.ReservedBitsDoNotMatter : Prop :=
  ∀ (i : Instr) (s s' : State), SameFields s.latch.a s'.latch.a → SameFields s.latch.b s'.latch.b →
    s.draws = s'.draws → SameFields s.r s'.r → SameFields s.x s'.x →
    ∃ t t', exec i s = .next t ∧ exec i s' = .next t' ∧ t.st = t'.st ∧ SameFields t.r t'.r ∧ SameFields t.x t'.x

/-- Safety is sound and tight: where a completion is due, the host program has broken a precondition (I8, I12, I13)
exactly if the completion gives BAD_INPUT. -/
def Obligations.SafeStepsNeverGiveBadInput : Prop :=
  ∀ s : State, resetNext s = false → completionDue s = true →
    ∃ t, step s = .next t ∧ (SafeStep s ↔ t.st ≠ .badInput)

/-! ## The sub-blocks as the rules describe them -/

/-- R101: three 32-bit additions with carry between them are the 96-bit adder. -/
def Obligations.WordAdderIsTheAdder : Prop :=
  ∀ m n : Nat, m < 2 ^ 96 → n < 2 ^ 96 →
    maddWords m n = ((m + n) % 2 ^ 96, if 2 ^ 96 ≤ m + n then 1 else 0) ∧
    (madd m n).1 = (m + n) % 2 ^ 96 ∧ ((madd m n).2 = true ↔ 2 ^ 96 ≤ m + n)

/-- R103: the 3x3 partial products give six 32-bit words whose number is the product, and the words beyond index 2 are
all zero exactly if the product is below 2^96. -/
def Obligations.PartialProductsGiveTheProduct : Prop :=
  ∀ m n : Nat, m < 2 ^ 96 → n < 2 ^ 96 →
    (mmulWords m n).length = 6 ∧ (∀ w ∈ mmulWords m n, w < 2 ^ 32) ∧ ofWords (mmulWords m n) = m * n ∧
    mmul m n = m * n ∧ (m * n < 2 ^ 96 ↔ ∀ w ∈ (mmulWords m n).drop 3, w = 0)

/-- R104's reference algorithm, restoring binary long division with a 97-bit working divisor, gives quotient and
remainder. The spec marks that it does as its own inference: "standard shift-and-subtract division [from general
knowledge, not in source]" (R104, I21). -/
def Obligations.RestoringDividerDivides : Prop :=
  ∀ n d : Nat, n < 2 ^ 96 → 0 < d → d < 2 ^ 96 →
    restoringDivide n d = mdivmod n d ∧ (mdivmod n d).1 * d + (mdivmod n d).2 = n ∧ (mdivmod n d).2 < d ∧
    (divAlign n 96 d 1).1 < 2 ^ 97

/-- R160: what k digit drops leave. -/
def Obligations.DigitDropResults : Prop :=
  ∀ m k : Nat, (drop m k).q = m / 10 ^ k ∧ (drop m k).rem = m % 10 ^ k ∧
    ((drop m k).nz = true ↔ (drop m k).rem ≠ 0) ∧ (1 ≤ k → (drop m k).d = m / 10 ^ (k - 1) % 10) ∧
    (k = 0 → (drop m k).q = m ∧ (drop m k).rem = 0 ∧ (drop m k).d = 0 ∧ (drop m k).nz = false)
end

