-- ==== Sys2Proof/Laws/Operands.lean ====
section
/-! SUPPORT. The fields of a packed word as arithmetic on its number, and what each field update and `pack` leaves in
each field (R60, R61). Provers rewrite with these lemmas and do not unfold the bit slices. -/

namespace Sys2Proof.Machine

theorem append_toNat_add {m n : Nat} (x : BitVec m) (y : BitVec n) :
    (x ++ y).toNat = x.toNat * 2 ^ n + y.toNat := by
  rw [BitVec.toNat_append, ← Nat.shiftLeft_add_eq_or_of_lt y.isLt, Nat.shiftLeft_eq]

theorem mant_eq_mod (w : Value) : mant w = w.toNat % 2 ^ 96 := by
  simp [mant, BitVec.extractLsb'_toNat]

theorem scl_eq_div_mod (w : Value) : scl w = w.toNat / 2 ^ 112 % 2 ^ 8 := by
  simp [scl, BitVec.extractLsb'_toNat, Nat.shiftRight_eq_div_pow]

theorem sgn_toNat (w : Value) : (sgn w).toNat = w.toNat / 2 ^ 127 := by
  have h := w.isLt
  have hb : w.toNat / 2 ^ 127 < 2 := by omega
  rw [sgn, BitVec.getLsbD, Nat.testBit_eq_decide_div_mod_eq]
  rcases Nat.lt_or_ge (w.toNat / 2 ^ 127) 1 with h0 | h1
  · rw [Nat.lt_one_iff.mp h0]; rfl
  · rw [show w.toNat / 2 ^ 127 = 1 by omega]; rfl

theorem mant_lt (w : Value) : mant w < 2 ^ 96 := by rw [mant_eq_mod]; omega

theorem scl_lt (w : Value) : scl w < 2 ^ 8 := by rw [scl_eq_div_mod]; omega

theorem toNat_withMant (w : Value) (m : Nat) :
    (withMant w m).toNat = w.toNat / 2 ^ 96 * 2 ^ 96 + m % 2 ^ 96 := by
  have h := w.isLt
  simp only [withMant, append_toNat_add, BitVec.extractLsb'_toNat, BitVec.toNat_ofNat, Nat.shiftRight_eq_div_pow]
  omega

theorem toNat_withScale (w : Value) (e : Nat) :
    (withScale w e).toNat = w.toNat / 2 ^ 120 * 2 ^ 120 + e % 2 ^ 8 * 2 ^ 112 + w.toNat % 2 ^ 112 := by
  have h := w.isLt
  simp only [withScale, append_toNat_add, BitVec.extractLsb'_toNat, BitVec.toNat_ofNat, Nat.shiftRight_eq_div_pow]
  omega

theorem toNat_withSign (w : Value) (s : Bool) :
    (withSign w s).toNat = s.toNat * 2 ^ 127 + w.toNat % 2 ^ 127 := by
  simp only [withSign, append_toNat_add, BitVec.extractLsb'_toNat, BitVec.toNat_ofBool, Nat.shiftRight_eq_div_pow]
  omega

theorem toNat_pack (s : Bool) {e m : Nat} (he : e < 2 ^ 8) (hm : m < 2 ^ 96) :
    (pack s e m).toNat = s.toNat * 2 ^ 127 + e * 2 ^ 112 + m := by
  have hs := Bool.toNat_le s
  rw [pack, BitVec.toNat_ofNat]
  omega

theorem bool_eq_of_toNat {p q : Bool} (h : p.toNat = q.toNat) : p = q := by
  cases p <;> cases q <;> simp_all

@[simp] theorem mant_withMant (w : Value) (m : Nat) : mant (withMant w m) = m % 2 ^ 96 := by
  rw [mant_eq_mod, toNat_withMant]; omega

@[simp] theorem scl_withMant (w : Value) (m : Nat) : scl (withMant w m) = scl w := by
  rw [scl_eq_div_mod, scl_eq_div_mod, toNat_withMant]; omega

@[simp] theorem sgn_withMant (w : Value) (m : Nat) : sgn (withMant w m) = sgn w := by
  apply bool_eq_of_toNat; rw [sgn_toNat, sgn_toNat, toNat_withMant]; omega

@[simp] theorem mant_withScale (w : Value) (e : Nat) : mant (withScale w e) = mant w := by
  rw [mant_eq_mod, mant_eq_mod, toNat_withScale]; omega

@[simp] theorem scl_withScale (w : Value) (e : Nat) : scl (withScale w e) = e % 2 ^ 8 := by
  have h := w.isLt
  rw [scl_eq_div_mod, toNat_withScale]; omega

@[simp] theorem sgn_withScale (w : Value) (e : Nat) : sgn (withScale w e) = sgn w := by
  apply bool_eq_of_toNat; rw [sgn_toNat, sgn_toNat, toNat_withScale]; omega

@[simp] theorem mant_withSign (w : Value) (s : Bool) : mant (withSign w s) = mant w := by
  rw [mant_eq_mod, mant_eq_mod, toNat_withSign]; omega

@[simp] theorem scl_withSign (w : Value) (s : Bool) : scl (withSign w s) = scl w := by
  rw [scl_eq_div_mod, scl_eq_div_mod, toNat_withSign]; omega

@[simp] theorem sgn_withSign (w : Value) (s : Bool) : sgn (withSign w s) = s := by
  apply bool_eq_of_toNat; rw [sgn_toNat, toNat_withSign]; omega

theorem mant_pack (s : Bool) {e m : Nat} (he : e < 2 ^ 8) (hm : m < 2 ^ 96) : mant (pack s e m) = m := by
  rw [mant_eq_mod, toNat_pack s he hm]; omega

theorem scl_pack (s : Bool) {e m : Nat} (he : e < 2 ^ 8) (hm : m < 2 ^ 96) : scl (pack s e m) = e := by
  rw [scl_eq_div_mod, toNat_pack s he hm]; omega

theorem sgn_pack (s : Bool) {e m : Nat} (he : e < 2 ^ 8) (hm : m < 2 ^ 96) : sgn (pack s e m) = s := by
  apply bool_eq_of_toNat; rw [sgn_toNat, toNat_pack s he hm]; omega

theorem isZero_iff (w : Value) : isZero w = true ↔ mant w = 0 := by simp [isZero]

theorem canon_iff (w : Value) : canon w = true ↔ scl w ≤ 28 := by simp [canon]

@[simp] theorem canon_withSign (w : Value) (s : Bool) : canon (withSign w s) = canon w := by simp [canon]

theorem toNat_zext {n : Nat} (h : n < 2 ^ 128) : (zext n).toNat = n := by
  rw [zext, BitVec.toNat_ofNat, Nat.mod_eq_of_lt h]

@[simp] theorem toNat_flagBit (p : Bool) : (flagBit p).toNat = p.toNat := by
  cases p <;> rfl

theorem clamp28_le (n : Int) : clamp28 n ≤ 28 := by
  unfold clamp28; split <;> [omega; (split <;> omega)]

end Sys2Proof.Machine
end

