-- ==== Sys2Proof/Laws/Datapath.lean ====
section
/-! SUPPORT. Spec lemmas of the magnitude functions (R100, R105) and of one step of the normaliser (R120) and of the
digit drop (R160). -/

namespace Sys2Proof.Machine

theorem mcmp_lt_iff (m n : Nat) : mcmp m n = .lt ↔ m < n := by
  unfold mcmp; split <;> [simp_all; (split <;> simp_all)]

theorem mcmp_eq_iff (m n : Nat) : mcmp m n = .eq ↔ m = n := by
  unfold mcmp; split <;> [(simp; omega); (split <;> simp_all)]

theorem mcmp_gt_iff (m n : Nat) : mcmp m n = .gt ↔ n < m := by
  unfold mcmp; split <;> [(simp; omega); (split <;> simp <;> omega)]

theorem mul10_of_le {m : Nat} (h : m * 10 < 2 ^ 96) : mul10 m = (m * 10, false) := by
  unfold mul10; rw [if_pos (by simp only [Config.mantMax]; omega)]

theorem mul10_of_overflow {m : Nat} (h : 2 ^ 96 ≤ m * 10) : mul10 m = (m, true) := by
  unfold mul10; rw [if_neg (by simp only [Config.mantMax]; omega)]

theorem raiseScaleBy_succ_of_fits {w : Value} (k : Nat) (h : mant w * 10 < 2 ^ 96) :
    raiseScaleBy (k + 1) w = raiseScaleBy k (withScale (withMant w (mant w * 10)) (scl w + 1)) := by
  simp [raiseScaleBy, mul10_of_le h]

theorem raiseScaleBy_of_overflow {w : Value} (k : Nat) (h : 2 ^ 96 ≤ mant w * 10) : raiseScaleBy k w = w := by
  cases k <;> simp [raiseScaleBy, mul10_of_overflow h]

theorem dropDigit_eq (g : DropRegs) :
    dropDigit g = ⟨g.q / 10, g.rem + g.q % 10 * g.pw, g.pw * 10, g.q % 10, g.nz || g.q % 10 != 0⟩ := rfl

end Sys2Proof.Machine
end

