-- ==== Sys2Proof/Laws/State.lean ====
section
/-! SUPPORT. What each named update of the state does to each field: one lemma per field per update, true by rfl. -/

namespace Sys2Proof.Machine

/-! ### finish -/

@[simp] theorem finish_a (st : Status) (r x : Value) (s : State) : (finish st r x s).a = s.a := rfl
@[simp] theorem finish_b (st : Status) (r x : Value) (s : State) : (finish st r x s).b = s.b := rfl
@[simp] theorem finish_r (st : Status) (r x : Value) (s : State) : (finish st r x s).r = r := rfl
@[simp] theorem finish_x (st : Status) (r x : Value) (s : State) : (finish st r x s).x = x := rfl
@[simp] theorem finish_cmd (st : Status) (r x : Value) (s : State) : (finish st r x s).cmd = s.cmd := rfl
@[simp] theorem finish_st (st : Status) (r x : Value) (s : State) : (finish st r x s).st = st := rfl
@[simp] theorem finish_busy (st : Status) (r x : Value) (s : State) : (finish st r x s).busy = false := rfl
@[simp] theorem finish_done (st : Status) (r x : Value) (s : State) : (finish st r x s).done = true := rfl
@[simp] theorem finish_latch (st : Status) (r x : Value) (s : State) : (finish st r x s).latch = s.latch := rfl
@[simp] theorem finish_due (st : Status) (r x : Value) (s : State) : (finish st r x s).due = s.due := rfl
@[simp] theorem finish_draws (st : Status) (r x : Value) (s : State) : (finish st r x s).draws = s.draws := rfl
@[simp] theorem finish_script (st : Status) (r x : Value) (s : State) : (finish st r x s).script = s.script := rfl
@[simp] theorem finish_replies (st : Status) (r x : Value) (s : State) : (finish st r x s).replies = s.replies := rfl

/-! ### raiseBadInput -/

@[simp] theorem raiseBadInput_a (s : State) : (raiseBadInput s).a = s.a := rfl
@[simp] theorem raiseBadInput_b (s : State) : (raiseBadInput s).b = s.b := rfl
@[simp] theorem raiseBadInput_r (s : State) : (raiseBadInput s).r = s.r := rfl
@[simp] theorem raiseBadInput_x (s : State) : (raiseBadInput s).x = s.x := rfl
@[simp] theorem raiseBadInput_cmd (s : State) : (raiseBadInput s).cmd = s.cmd := rfl
@[simp] theorem raiseBadInput_st (s : State) : (raiseBadInput s).st = .badInput := rfl
@[simp] theorem raiseBadInput_busy (s : State) : (raiseBadInput s).busy = false := rfl
@[simp] theorem raiseBadInput_done (s : State) : (raiseBadInput s).done = true := rfl
@[simp] theorem raiseBadInput_latch (s : State) : (raiseBadInput s).latch = s.latch := rfl
@[simp] theorem raiseBadInput_due (s : State) : (raiseBadInput s).due = s.due := rfl
@[simp] theorem raiseBadInput_draws (s : State) : (raiseBadInput s).draws = s.draws := rfl
@[simp] theorem raiseBadInput_script (s : State) : (raiseBadInput s).script = s.script := rfl
@[simp] theorem raiseBadInput_replies (s : State) : (raiseBadInput s).replies = s.replies := rfl

/-! ### drawn -/

@[simp] theorem drawn_a (s : State) : (drawn s).a = s.a := rfl
@[simp] theorem drawn_b (s : State) : (drawn s).b = s.b := rfl
@[simp] theorem drawn_r (s : State) : (drawn s).r = s.r := rfl
@[simp] theorem drawn_x (s : State) : (drawn s).x = s.x := rfl
@[simp] theorem drawn_cmd (s : State) : (drawn s).cmd = s.cmd := rfl
@[simp] theorem drawn_st (s : State) : (drawn s).st = s.st := rfl
@[simp] theorem drawn_busy (s : State) : (drawn s).busy = s.busy := rfl
@[simp] theorem drawn_done (s : State) : (drawn s).done = s.done := rfl
@[simp] theorem drawn_latch (s : State) : (drawn s).latch = s.latch := rfl
@[simp] theorem drawn_due (s : State) : (drawn s).due = s.due := rfl
@[simp] theorem drawn_draws (s : State) : (drawn s).draws = s.draws + 1 := rfl
@[simp] theorem drawn_script (s : State) : (drawn s).script = s.script := rfl
@[simp] theorem drawn_replies (s : State) : (drawn s).replies = s.replies := rfl

/-! ### finishUnspecR -/

@[simp] theorem finishUnspecR_a (st : Status) (s : State) : (finishUnspecR st s).a = s.a := rfl
@[simp] theorem finishUnspecR_b (st : Status) (s : State) : (finishUnspecR st s).b = s.b := rfl
@[simp] theorem finishUnspecR_r (st : Status) (s : State) : (finishUnspecR st s).r = Config.unspec s.draws := rfl
@[simp] theorem finishUnspecR_x (st : Status) (s : State) : (finishUnspecR st s).x = 0 := rfl
@[simp] theorem finishUnspecR_cmd (st : Status) (s : State) : (finishUnspecR st s).cmd = s.cmd := rfl
@[simp] theorem finishUnspecR_st (st : Status) (s : State) : (finishUnspecR st s).st = st := rfl
@[simp] theorem finishUnspecR_busy (st : Status) (s : State) : (finishUnspecR st s).busy = false := rfl
@[simp] theorem finishUnspecR_done (st : Status) (s : State) : (finishUnspecR st s).done = true := rfl
@[simp] theorem finishUnspecR_latch (st : Status) (s : State) : (finishUnspecR st s).latch = s.latch := rfl
@[simp] theorem finishUnspecR_due (st : Status) (s : State) : (finishUnspecR st s).due = s.due := rfl
@[simp] theorem finishUnspecR_draws (st : Status) (s : State) : (finishUnspecR st s).draws = s.draws + 1 := rfl
@[simp] theorem finishUnspecR_script (st : Status) (s : State) : (finishUnspecR st s).script = s.script := rfl
@[simp] theorem finishUnspecR_replies (st : Status) (s : State) : (finishUnspecR st s).replies = s.replies := rfl

/-! ### finishUnspecRX -/

@[simp] theorem finishUnspecRX_a (st : Status) (s : State) : (finishUnspecRX st s).a = s.a := rfl
@[simp] theorem finishUnspecRX_b (st : Status) (s : State) : (finishUnspecRX st s).b = s.b := rfl
@[simp] theorem finishUnspecRX_r (st : Status) (s : State) : (finishUnspecRX st s).r = Config.unspec s.draws := rfl
@[simp] theorem finishUnspecRX_x (st : Status) (s : State) : (finishUnspecRX st s).x = Config.unspec (s.draws + 1) := rfl
@[simp] theorem finishUnspecRX_cmd (st : Status) (s : State) : (finishUnspecRX st s).cmd = s.cmd := rfl
@[simp] theorem finishUnspecRX_st (st : Status) (s : State) : (finishUnspecRX st s).st = st := rfl
@[simp] theorem finishUnspecRX_busy (st : Status) (s : State) : (finishUnspecRX st s).busy = false := rfl
@[simp] theorem finishUnspecRX_done (st : Status) (s : State) : (finishUnspecRX st s).done = true := rfl
@[simp] theorem finishUnspecRX_latch (st : Status) (s : State) : (finishUnspecRX st s).latch = s.latch := rfl
@[simp] theorem finishUnspecRX_due (st : Status) (s : State) : (finishUnspecRX st s).due = s.due := rfl
@[simp] theorem finishUnspecRX_draws (st : Status) (s : State) : (finishUnspecRX st s).draws = s.draws + 1 + 1 := rfl
@[simp] theorem finishUnspecRX_script (st : Status) (s : State) : (finishUnspecRX st s).script = s.script := rfl
@[simp] theorem finishUnspecRX_replies (st : Status) (s : State) : (finishUnspecRX st s).replies = s.replies := rfl

/-! ### accept -/

@[simp] theorem accept_a (v : Word32) (s : State) : (accept v s).a = s.a := rfl
@[simp] theorem accept_b (v : Word32) (s : State) : (accept v s).b = s.b := rfl
@[simp] theorem accept_r (v : Word32) (s : State) : (accept v s).r = s.r := rfl
@[simp] theorem accept_x (v : Word32) (s : State) : (accept v s).x = s.x := rfl
@[simp] theorem accept_cmd (v : Word32) (s : State) : (accept v s).cmd = ⟨wordOpc v, wordV v, wordNd v⟩ := rfl
@[simp] theorem accept_st (v : Word32) (s : State) : (accept v s).st = s.st := rfl
@[simp] theorem accept_busy (v : Word32) (s : State) : (accept v s).busy = true := rfl
@[simp] theorem accept_done (v : Word32) (s : State) : (accept v s).done = false := rfl
@[simp] theorem accept_latch (v : Word32) (s : State) : (accept v s).latch = ⟨wordOpc v, wordV v, wordNd v, s.a, s.b⟩ := rfl
@[simp] theorem accept_due (v : Word32) (s : State) : (accept v s).due = Config.latency (wordOpc v) s.a s.b - 1 := rfl
@[simp] theorem accept_draws (v : Word32) (s : State) : (accept v s).draws = s.draws := rfl
@[simp] theorem accept_script (v : Word32) (s : State) : (accept v s).script = s.script := rfl
@[simp] theorem accept_replies (v : Word32) (s : State) : (accept v s).replies = s.replies := rfl

/-! ### tick -/

@[simp] theorem tick_a (s : State) : (tick s).a = s.a := rfl
@[simp] theorem tick_b (s : State) : (tick s).b = s.b := rfl
@[simp] theorem tick_r (s : State) : (tick s).r = s.r := rfl
@[simp] theorem tick_x (s : State) : (tick s).x = s.x := rfl
@[simp] theorem tick_cmd (s : State) : (tick s).cmd = s.cmd := rfl
@[simp] theorem tick_st (s : State) : (tick s).st = s.st := rfl
@[simp] theorem tick_busy (s : State) : (tick s).busy = s.busy := rfl
@[simp] theorem tick_done (s : State) : (tick s).done = s.done := rfl
@[simp] theorem tick_latch (s : State) : (tick s).latch = s.latch := rfl
@[simp] theorem tick_due (s : State) : (tick s).due = if s.busy then s.due - 1 else s.due := rfl
@[simp] theorem tick_draws (s : State) : (tick s).draws = s.draws := rfl
@[simp] theorem tick_script (s : State) : (tick s).script = s.script := rfl
@[simp] theorem tick_replies (s : State) : (tick s).replies = s.replies := rfl

/-! ### reply -/

@[simp] theorem reply_a (m : BusReply) (s : State) : (reply m s).a = s.a := rfl
@[simp] theorem reply_b (m : BusReply) (s : State) : (reply m s).b = s.b := rfl
@[simp] theorem reply_r (m : BusReply) (s : State) : (reply m s).r = s.r := rfl
@[simp] theorem reply_x (m : BusReply) (s : State) : (reply m s).x = s.x := rfl
@[simp] theorem reply_cmd (m : BusReply) (s : State) : (reply m s).cmd = s.cmd := rfl
@[simp] theorem reply_st (m : BusReply) (s : State) : (reply m s).st = s.st := rfl
@[simp] theorem reply_busy (m : BusReply) (s : State) : (reply m s).busy = s.busy := rfl
@[simp] theorem reply_done (m : BusReply) (s : State) : (reply m s).done = s.done := rfl
@[simp] theorem reply_latch (m : BusReply) (s : State) : (reply m s).latch = s.latch := rfl
@[simp] theorem reply_due (m : BusReply) (s : State) : (reply m s).due = s.due := rfl
@[simp] theorem reply_draws (m : BusReply) (s : State) : (reply m s).draws = s.draws := rfl
@[simp] theorem reply_script (m : BusReply) (s : State) : (reply m s).script = s.script := rfl
@[simp] theorem reply_replies (m : BusReply) (s : State) : (reply m s).replies = m :: s.replies := rfl

/-! ### resetBlock -/

@[simp] theorem resetBlock_a (s : State) : (resetBlock s).a = 0 := rfl
@[simp] theorem resetBlock_b (s : State) : (resetBlock s).b = 0 := rfl
@[simp] theorem resetBlock_r (s : State) : (resetBlock s).r = 0 := rfl
@[simp] theorem resetBlock_x (s : State) : (resetBlock s).x = 0 := rfl
@[simp] theorem resetBlock_cmd (s : State) : (resetBlock s).cmd = ⟨0, false, false⟩ := rfl
@[simp] theorem resetBlock_st (s : State) : (resetBlock s).st = .ok := rfl
@[simp] theorem resetBlock_busy (s : State) : (resetBlock s).busy = false := rfl
@[simp] theorem resetBlock_done (s : State) : (resetBlock s).done = false := rfl
@[simp] theorem resetBlock_latch (s : State) : (resetBlock s).latch = ⟨0, false, false, 0, 0⟩ := rfl
@[simp] theorem resetBlock_due (s : State) : (resetBlock s).due = 0 := rfl
@[simp] theorem resetBlock_draws (s : State) : (resetBlock s).draws = s.draws := rfl
@[simp] theorem resetBlock_script (s : State) : (resetBlock s).script = s.script := rfl
@[simp] theorem resetBlock_replies (s : State) : (resetBlock s).replies = s.replies := rfl

end Sys2Proof.Machine
end

