-- ==== Sys2Proof/Laws/Ops.lean ====
section
/-! SUPPORT. What the shared checks and the bus can answer (R185, R187, R40 to R44): cited instead of unfolding them. -/

namespace Sys2Proof.Machine

@[simp] theorem checkNd_true (s k : State) : checkNd true s k = raiseBadInput s := rfl

@[simp] theorem checkNd_false (s k : State) : checkNd false s k = k := rfl

theorem checkCanonA_of_canon {s : State} (k : State) (h : canon s.latch.a = true) : checkCanonA s k = k := by
  simp [checkCanonA, h]

theorem checkCanonA_of_not {s : State} (k : State) (h : canon s.latch.a = false) :
    checkCanonA s k = raiseBadInput s := by
  simp [checkCanonA, h]

theorem checkCanonAB_of_canon {s : State} (k : State) (ha : canon s.latch.a = true) (hb : canon s.latch.b = true) :
    checkCanonAB s k = k := by
  simp [checkCanonAB, ha, hb]

theorem checkCanonAB_of_not {s : State} (k : State) (h : canon s.latch.a = false ∨ canon s.latch.b = false) :
    checkCanonAB s k = raiseBadInput s := by
  rcases h with h | h <;> simp [checkCanonAB, h]

/-- A check passes the command's own completion on, or completes with BAD_INPUT. -/
theorem checkNd_cases (nd : Bool) (s k : State) : checkNd nd s k = k ∨ checkNd nd s k = raiseBadInput s := by
  cases nd <;> simp

theorem checkCanonA_cases (s k : State) : checkCanonA s k = k ∨ checkCanonA s k = raiseBadInput s := by
  unfold checkCanonA; split <;> simp

theorem checkCanonAB_cases (s k : State) : checkCanonAB s k = k ∨ checkCanonAB s k = raiseBadInput s := by
  unfold checkCanonAB; split <;> simp

/-- `t` is a completion of `s`: it differs only in R, X, ST, BUSY = 0, DONE = 1 and the draw counter (R183). -/
def CompletesFrom (s t : State) : Prop :=
  t = { s with r := t.r, x := t.x, st := t.st, busy := false, done := true, draws := t.draws }

theorem finish_completesFrom (st : Status) (r x : Value) (s : State) : CompletesFrom s (finish st r x s) := rfl

theorem raiseBadInput_completesFrom (s : State) : CompletesFrom s (raiseBadInput s) := rfl

theorem finishUnspecR_completesFrom (st : Status) (s : State) : CompletesFrom s (finishUnspecR st s) := rfl

theorem finishUnspecRX_completesFrom (st : Status) (s : State) : CompletesFrom s (finishUnspecRX st s) := rfl

theorem checkNd_completesFrom {s k : State} (nd : Bool) (h : CompletesFrom s k) : CompletesFrom s (checkNd nd s k) := by
  rcases checkNd_cases nd s k with e | e <;> rw [e] <;> [exact h; exact raiseBadInput_completesFrom s]

theorem checkCanonA_completesFrom {s k : State} (h : CompletesFrom s k) : CompletesFrom s (checkCanonA s k) := by
  rcases checkCanonA_cases s k with e | e <;> rw [e] <;> [exact h; exact raiseBadInput_completesFrom s]

theorem checkCanonAB_completesFrom {s k : State} (h : CompletesFrom s k) : CompletesFrom s (checkCanonAB s k) := by
  rcases checkCanonAB_cases s k with e | e <;> rw [e] <;> [exact h; exact raiseBadInput_completesFrom s]

/-- An offset of the window is found again at `BASE` plus it, whatever `BASE` is (R40). -/
theorem windowOffset_base_add {off : Nat} (h : off < 0x100) : windowOffset (Config.base + off) = some off := by
  unfold windowOffset
  rw [if_pos ⟨by omega, by simp only [Config.windowBytes]; omega⟩, Nat.add_sub_cancel_left]

/-- A bus address in the window is `BASE` plus its offset (R40). -/
theorem eq_base_add_of_windowOffset {addr off : Nat} (h : windowOffset addr = some off) : addr = Config.base + off := by
  unfold windowOffset at h
  split at h <;> simp at h
  omega

/-- A bus read answers with data, with a bus error, or faults outside the window, and changes nothing else (R42, R44). -/
theorem busRead_cases (addr width : Nat) (s : State) :
    busRead addr width s = .fault .outsideWindow ∨ ∃ m, busRead addr width s = .next (reply m s) := by
  unfold busRead
  split
  · exact .inl rfl
  · split <;> exact .inr ⟨_, rfl⟩

/-- A bus write stores a word, gets a bus error, or faults outside the window (R43, R44). -/
theorem busWrite_cases (addr width : Nat) (v : Word32) (s : State) :
    busWrite addr width v s = .fault .outsideWindow ∨ busWrite addr width v s = .next (reply .busError s) ∨
      ∃ off, busWrite addr width v s = .next (memWrite off v s) := by
  unfold busWrite
  split
  · exact .inl rfl
  · split
    · exact .inr (.inr ⟨_, rfl⟩)
    · exact .inr (.inl rfl)

/-- A word write changes A, changes B, accepts a command while none runs, or changes nothing (R43). -/
theorem memWrite_cases (off : Nat) (v : Word32) (s : State) :
    (∃ q, memWrite off v s = { s with a := q }) ∨ (∃ q, memWrite off v s = { s with b := q }) ∨
      (s.busy = false ∧ memWrite off v s = accept v s) ∨ memWrite off v s = s := by
  unfold memWrite
  split
  · exact .inl ⟨_, rfl⟩
  · split
    · exact .inr (.inl ⟨_, rfl⟩)
    · split
      · split <;> simp_all
      · simp

/-- Polling reads STATUS; the list of inputs keeps the poll exactly while a command runs (R73). -/
theorem pollStatus_eq (s : State) :
    pollStatus s =
      { s with
        replies := .data (statusWord s) :: s.replies
        script := if s.busy then .wait :: s.script else s.script } := by
  cases h : s.busy <;> simp [pollStatus, reply, memRead, h]

end Sys2Proof.Machine
end

