-- ==== Sys2Proof/Laws/PerInstr.lean ====
section
/-! SUPPORT. Statements made per command, as syntax. The family OpcodeRow: the command word of a command carries its
row's operation code in bits 5:0 and 0 in every reserved bit 30:7, its written form is well formed, and the code is one
its row's `match` and `mask` admit (R66, R70; spec/opcode_table.json). -/

namespace Sys2Proof.Laws.OpcodeRow

/-- The operation code spec/opcode_table.json gives a command (`match` under the mask 0x3F). -/
def code : Instr → Nat
  | .zero => 0x00
  | .getsign => 0x01
  | .setsign _ => 0x02
  | .getscale => 0x03
  | .setscale => 0x04
  | .getbit => 0x05
  | .setbit _ => 0x06
  | .shl => 0x07
  | .shr => 0x08
  | .pack _ => 0x09
  | .iszero => 0x0a
  | .mcmp => 0x10
  | .madd => 0x11
  | .msub => 0x12
  | .mmul => 0x13
  | .mdiv => 0x14
  | .mul10 => 0x15
  | .div10 => 0x16
  | .cmpabs => 0x18
  | .norm => 0x19
  | .cmp => 0x1a
  | .lt => 0x1b
  | .le => 0x1c
  | .gt => 0x1d
  | .ge => 0x1e
  | .eq => 0x1f
  | .ne => 0x20
  | .add _ => 0x28
  | .sub _ => 0x29
  | .mul _ => 0x2a
  | .div _ => 0x2b
  | .neg _ => 0x2c
  | .brnd _ => 0x30
  | .round _ => 0x31
  | .floor _ => 0x32
  | .trunc _ => 0x33

/-- The command's word as its row of the table has it. -/
def Statement (i : Instr) : Prop :=
  (encode i &&& 0x3F#32).toNat = code i ∧ (encode i).extractLsb' 7 24 = 0#24 ∧ i.wellFormed = true

theorem zero : Statement .zero := ⟨rfl, rfl, rfl⟩
theorem getsign : Statement .getsign := ⟨rfl, rfl, rfl⟩
theorem setsign (v : Bool) : Statement (.setsign v) := by cases v <;> exact ⟨rfl, rfl, rfl⟩
theorem getscale : Statement .getscale := ⟨rfl, rfl, rfl⟩
theorem setscale : Statement .setscale := ⟨rfl, rfl, rfl⟩
theorem getbit : Statement .getbit := ⟨rfl, rfl, rfl⟩
theorem setbit (v : Bool) : Statement (.setbit v) := by cases v <;> exact ⟨rfl, rfl, rfl⟩
theorem shl : Statement .shl := ⟨rfl, rfl, rfl⟩
theorem shr : Statement .shr := ⟨rfl, rfl, rfl⟩
theorem pack (v : Bool) : Statement (.pack v) := by cases v <;> exact ⟨rfl, rfl, rfl⟩
theorem iszero : Statement .iszero := ⟨rfl, rfl, rfl⟩
theorem mcmp : Statement .mcmp := ⟨rfl, rfl, rfl⟩
theorem madd : Statement .madd := ⟨rfl, rfl, rfl⟩
theorem msub : Statement .msub := ⟨rfl, rfl, rfl⟩
theorem mmul : Statement .mmul := ⟨rfl, rfl, rfl⟩
theorem mdiv : Statement .mdiv := ⟨rfl, rfl, rfl⟩
theorem mul10 : Statement .mul10 := ⟨rfl, rfl, rfl⟩
theorem div10 : Statement .div10 := ⟨rfl, rfl, rfl⟩
theorem cmpabs : Statement .cmpabs := ⟨rfl, rfl, rfl⟩
theorem norm : Statement .norm := ⟨rfl, rfl, rfl⟩
theorem cmp : Statement .cmp := ⟨rfl, rfl, rfl⟩
theorem lt : Statement .lt := ⟨rfl, rfl, rfl⟩
theorem le : Statement .le := ⟨rfl, rfl, rfl⟩
theorem gt : Statement .gt := ⟨rfl, rfl, rfl⟩
theorem ge : Statement .ge := ⟨rfl, rfl, rfl⟩
theorem eq : Statement .eq := ⟨rfl, rfl, rfl⟩
theorem ne : Statement .ne := ⟨rfl, rfl, rfl⟩
theorem add (nd : Bool) : Statement (.add nd) := by cases nd <;> exact ⟨rfl, rfl, rfl⟩
theorem sub (nd : Bool) : Statement (.sub nd) := by cases nd <;> exact ⟨rfl, rfl, rfl⟩
theorem mul (nd : Bool) : Statement (.mul nd) := by cases nd <;> exact ⟨rfl, rfl, rfl⟩
theorem div (nd : Bool) : Statement (.div nd) := by cases nd <;> exact ⟨rfl, rfl, rfl⟩
theorem neg (nd : Bool) : Statement (.neg nd) := by cases nd <;> exact ⟨rfl, rfl, rfl⟩
theorem brnd (nd : Bool) : Statement (.brnd nd) := by cases nd <;> exact ⟨rfl, rfl, rfl⟩
theorem round (nd : Bool) : Statement (.round nd) := by cases nd <;> exact ⟨rfl, rfl, rfl⟩
theorem floor (nd : Bool) : Statement (.floor nd) := by cases nd <;> exact ⟨rfl, rfl, rfl⟩
theorem trunc (nd : Bool) : Statement (.trunc nd) := by cases nd <;> exact ⟨rfl, rfl, rfl⟩

end Sys2Proof.Laws.OpcodeRow
end

