-- ==== Sys2Proof/Laws/Step.lean ====
section
/-! SUPPORT. Everything one step can do, said once (R18): a reset, a completion, or a cycle of the host. -/

namespace Sys2Proof.Machine

/-- One step is a reset, else the completion that is due, else one cycle of the host. -/
theorem step_cases (s : State) :
    (resetNext s = true ∧ step s = .next (takeReset s)) ∨
      (resetNext s = false ∧ completionDue s = true ∧ step s = complete s) ∨
      (resetNext s = false ∧ completionDue s = false ∧ step s = hostCycle s) := by
  unfold step
  cases resetNext s <;> cases completionDue s <;> simp

/-- A completion runs the decoded command, or completes with BAD_INPUT where no command is decoded (R183, R186). -/
theorem complete_cases (s : State) :
    (∃ i, decodeFields s.latch.opc s.latch.v s.latch.nd = .ok i ∧ complete s = exec i s) ∨
      ((∃ e, decodeFields s.latch.opc s.latch.v s.latch.nd = .error e) ∧ complete s = .next (raiseBadInput s)) := by
  unfold complete
  cases h : decodeFields s.latch.opc s.latch.v s.latch.nd <;> simp

/-- One cycle of the host: no input is left, or the first one happens after the cycle has passed. -/
theorem hostCycle_cases (s : State) :
    (s.script = [] ∧ hostCycle s = .next (tick s)) ∨
      ∃ e rest, s.script = e :: rest ∧ hostCycle s = hostAct e (tick { s with script := rest }) := by
  unfold hostCycle
  cases h : s.script <;> simp

/-- With no completion due, a step whose next input is not the reset signal performs that input one cycle later. -/
theorem step_of_input {s : State} {e : HostEvent} {rest : List HostEvent} (h : s.script = e :: rest) (he : e ≠ .reset)
    (hc : completionDue s = false) : step s = hostAct e (tick { s with script := rest }) := by
  have hr : resetNext s = false := by simp [resetNext, h, he]
  rcases step_cases s with ⟨h', _⟩ | ⟨_, h', _⟩ | ⟨_, _, h'⟩
  · simp [hr] at h'
  · simp [hc] at h'
  · simp [h', hostCycle, h]

end Sys2Proof.Machine
end

