-- ==== Sys2Proof/Tests/Slice0.lean ====
section
/-! SUPPORT. Small tests of the model: ill-formed commands are refused, each command's word written out from R66 decodes
to it, vectors of spec/95_test_vectors.md (expected results taken from its tables), bus accesses, and a witness for the
hypotheses of every statement that has any. -/

namespace Sys2Proof.Tests

open Sys2Proof Sys2Proof.Machine Sys2Proof.Claims

/-! ## Well-formed written commands (R71): one ill-formed term for each check -/

theorem test_wellformed_refuses_unassigned_opcode : (Command.mk 0x0B#6 false none).wellFormed = false := by decide

theorem test_wellformed_refuses_missing_value_bit : (Command.mk 0x02#6 false none).wellFormed = false := by decide

theorem test_wellformed_refuses_value_bit_on_add : (Command.mk 0x28#6 false (some true)).wellFormed = false := by decide

theorem test_wellformed_refuses_nd_outside_status_group :
    (Command.mk 0x10#6 true none).wellFormed = false := by decide

theorem test_wellformed_admits_add_nd : (Command.mk 0x28#6 true none).wellFormed = true := by decide

/-! ## Decoding: bit 31 ND, bits 30:7 reserved, bit 6 V, bits 5:0 OPC (R66) -/

theorem test_decode_zero : decode 0b00000000000000000000000000000000#32 = .ok .zero := by decide
theorem test_decode_getsign : decode 0b00000000000000000000000000000001#32 = .ok .getsign := by decide
theorem test_decode_setsign : decode 0b00000000000000000000000001000010#32 = .ok (.setsign true) := by decide
theorem test_decode_getscale : decode 0b00000000000000000000000000000011#32 = .ok .getscale := by decide
theorem test_decode_setscale : decode 0b00000000000000000000000000000100#32 = .ok .setscale := by decide
theorem test_decode_getbit : decode 0b00000000000000000000000000000101#32 = .ok .getbit := by decide
theorem test_decode_setbit : decode 0b00000000000000000000000001000110#32 = .ok (.setbit true) := by decide
theorem test_decode_shl : decode 0b00000000000000000000000000000111#32 = .ok .shl := by decide
theorem test_decode_shr : decode 0b00000000000000000000000000001000#32 = .ok .shr := by decide
theorem test_decode_pack : decode 0b00000000000000000000000001001001#32 = .ok (.pack true) := by decide
theorem test_decode_iszero : decode 0b00000000000000000000000000001010#32 = .ok .iszero := by decide
theorem test_decode_mcmp : decode 0b00000000000000000000000000010000#32 = .ok .mcmp := by decide
theorem test_decode_madd : decode 0b00000000000000000000000000010001#32 = .ok .madd := by decide
theorem test_decode_msub : decode 0b00000000000000000000000000010010#32 = .ok .msub := by decide
theorem test_decode_mmul : decode 0b00000000000000000000000000010011#32 = .ok .mmul := by decide
theorem test_decode_mdiv : decode 0b00000000000000000000000000010100#32 = .ok .mdiv := by decide
theorem test_decode_mul10 : decode 0b00000000000000000000000000010101#32 = .ok .mul10 := by decide
theorem test_decode_div10 : decode 0b00000000000000000000000000010110#32 = .ok .div10 := by decide
theorem test_decode_cmpabs : decode 0b00000000000000000000000000011000#32 = .ok .cmpabs := by decide
theorem test_decode_norm : decode 0b00000000000000000000000000011001#32 = .ok .norm := by decide
theorem test_decode_cmp : decode 0b00000000000000000000000000011010#32 = .ok .cmp := by decide
theorem test_decode_lt : decode 0b00000000000000000000000000011011#32 = .ok .lt := by decide
theorem test_decode_le : decode 0b00000000000000000000000000011100#32 = .ok .le := by decide
theorem test_decode_gt : decode 0b00000000000000000000000000011101#32 = .ok .gt := by decide
theorem test_decode_ge : decode 0b00000000000000000000000000011110#32 = .ok .ge := by decide
theorem test_decode_eq : decode 0b00000000000000000000000000011111#32 = .ok .eq := by decide
theorem test_decode_ne : decode 0b00000000000000000000000000100000#32 = .ok .ne := by decide
theorem test_decode_add : decode 0b10000000000000000000000000101000#32 = .ok (.add true) := by decide
theorem test_decode_sub : decode 0b10000000000000000000000000101001#32 = .ok (.sub true) := by decide
theorem test_decode_mul : decode 0b10000000000000000000000000101010#32 = .ok (.mul true) := by decide
theorem test_decode_div : decode 0b10000000000000000000000000101011#32 = .ok (.div true) := by decide
theorem test_decode_neg : decode 0b10000000000000000000000000101100#32 = .ok (.neg true) := by decide
theorem test_decode_brnd : decode 0b10000000000000000000000000110000#32 = .ok (.brnd true) := by decide
theorem test_decode_round : decode 0b10000000000000000000000000110001#32 = .ok (.round true) := by decide
theorem test_decode_floor : decode 0b10000000000000000000000000110010#32 = .ok (.floor true) := by decide
theorem test_decode_trunc : decode 0b10000000000000000000000000110011#32 = .ok (.trunc true) := by decide

/-- R67: the gaps of the opcode map are refused by name. -/
theorem test_decode_refuses_gaps :
    decode 0x0000000B#32 = .error (.unassignedOpcode 0x0B#6) ∧ decode 0x00000017#32 = .error (.unassignedOpcode 0x17#6) ∧
    decode 0x00000021#32 = .error (.unassignedOpcode 0x21#6) ∧ decode 0x0000002D#32 = .error (.unassignedOpcode 0x2D#6) ∧
    decode 0x00000034#32 = .error (.unassignedOpcode 0x34#6) ∧ decode 0x0000003F#32 = .error (.unassignedOpcode 0x3F#6) := by
  decide

/-- R67: reserved bits, V of ADD and ND of CMP do not change decoding. -/
theorem test_decode_ignores_reserved_bits :
    decode 0x7FFFFFE8#32 = .ok (.add false) ∧ decode 0xFFFFFF9A#32 = .ok .cmp ∧
    decodeTableWord 6 0x28 = some (.add false) := by decide

/-! ## Vectors of spec/95: one command on latched operands, from a block just reset -/

/-- ST, R and X of an outcome. -/
def result (o : StepOutcome) : Option (Status × Value × Value) :=
  match o with
  | .next t => some (t.st, t.r, t.x)
  | _ => none

/-- One command word run on operands a and b. -/
def run (w : Nat) (a b : Value) : Option (Status × Value × Value) :=
  result (step (State.withFetchWord { State.reset with a := a, b := b } 32 w))

/-- The status of one command word run on operands a and b. -/
def runStatus (w : Nat) (a b : Value) : Option Status := (run w a b).map fun p => p.1

/-- Vector BF1: `ZERO`. -/
theorem test_zero_bf1 : run 0x00000000 (pack true 5 7) 0#128 = some (.ok, 0#128, 0#128) := by decide

/-- Vector BF2: `GETSIGN`. -/
theorem test_getsign_bf2 : run 0x00000001 (pack true 1 25) 0#128 = some (.ok, 0#128, 1#128) := by decide

/-- Vector BF3: `GETSIGN`. -/
theorem test_getsign_bf3 : run 0x00000001 (pack true 3 0) 0#128 = some (.ok, 0#128, 1#128) := by decide

/-- Vector BF7: `SETSIGN 1`. -/
theorem test_setsign_1_bf7 : run 0x00000042 0x0000FFFF000000000000000000000005#128 0#128 = some (.ok, 0x8000FFFF000000000000000000000005#128, 0#128) := by decide

/-- Vector BF8: `SETSIGN 1`. -/
theorem test_setsign_1_bf8 : run 0x00000042 (pack false 29 1) 0#128 = some (.ok, (pack true 29 1), 0#128) := by decide

/-- Vector BF9: `GETSCALE`. -/
theorem test_getscale_bf9 : run 0x00000003 (pack false 28 1) 0#128 = some (.ok, 0#128, 28#128) := by decide

/-- Vector BF10: `GETSCALE`. -/
theorem test_getscale_bf10 : run 0x00000003 (pack false 29 1) 0#128 = some (.ok, 0#128, 0#128) := by decide

/-- Vector BF14: `SETSCALE`. -/
theorem test_setscale_bf14 : run 0x00000004 (pack true 0 7) 29#128 = some (.ok, (pack true 28 7), 0#128) := by decide

/-- Vector BF16: `SETSCALE`. -/
theorem test_setscale_bf16 : run 0x00000004 (pack false 3 7) 0xFFFFFFFFFFFFFFFFFFFFFFFF80000000#128 = some (.ok, 7#128, 0#128) := by decide

/-- Vector BF18: `GETBIT`. -/
theorem test_getbit_bf18 : run 0x00000005 0x800000000000000000000000#128 95#128 = some (.ok, 0#128, 1#128) := by decide

/-- Vector BF19: `GETBIT`. -/
theorem test_getbit_bf19 : run 0x00000005 (pack true 0 0x800000000000000000000000) 127#128 = some (.ok, 0#128, 0#128) := by decide

/-- Vector BF23: `SETBIT 1`. -/
theorem test_setbit_1_bf23 : run 0x00000046 0#128 64#128 = some (.ok, 0x10000000000000000#128, 0#128) := by decide

/-- Vector BF26: `SETBIT 1`. -/
theorem test_setbit_1_bf26 : run 0x00000046 (pack false 4 9) 0xFFFFFFFFFFFFFFFFFFFFFFFFFFFFFFFB#128 = some (.ok, (pack false 4 9), 0#128) := by decide

/-- Vector BF30: `SHL`. -/
theorem test_shl_bf30 : run 0x00000007 (pack true 3 0x8000000000000000) 0#128 = some (.ok, (pack true 3 0x10000000000000000), 0#128) := by decide

/-- Vector BF29: `SHL`. -/
theorem test_shl_bf29 : run 0x00000007 0xFFFFFFFFFFFFFFFFFFFFFFFF#128 0#128 = some (.ok, 0xFFFFFFFFFFFFFFFFFFFFFFFE#128, 1#128) := by decide

/-- Vector BF31: `SHR`. -/
theorem test_shr_bf31 : run 0x00000008 4294967297#128 0#128 = some (.ok, 2147483648#128, 1#128) := by decide

/-- Vector BF33: `SHR`. -/
theorem test_shr_bf33 : run 0x00000008 (pack true 2 0x800000000000000000000000) 0#128 = some (.ok, (pack true 2 0x400000000000000000000000), 0#128) := by decide

/-- Vector BF34: `PACK 1`. -/
theorem test_pack_1_bf34 : run 0x00000049 25#128 1#128 = some (.ok, (pack true 1 25), 0#128) := by decide

/-- Vector BF35: `PACK 0`. -/
theorem test_pack_0_bf35 : run 0x00000009 0xFFFFFFFF000000000000000000000005#128 40#128 = some (.ok, (pack false 28 5), 0#128) := by decide

/-- Vector BF38: `ISZERO`. -/
theorem test_iszero_bf38 : run 0x0000000A (pack true 28 0) 0#128 = some (.ok, 0#128, 1#128) := by decide

/-- Vector BF41: `ISZERO`. -/
theorem test_iszero_bf41 : run 0x0000000A 1#128 0#128 = some (.ok, 0#128, 0#128) := by decide

/-- Vector PR4: `MCMP`. -/
theorem test_mcmp_pr4 : run 0x00000010 (pack false 2 123) (pack false 3 1230) = some (.ok, 0#128, 4294967295#128) := by decide

/-- Vector PR3: `MCMP`. -/
theorem test_mcmp_pr3 : run 0x00000010 0xFFFFFFFFFFFFFFFFFFFFFFFF#128 0#128 = some (.ok, 0#128, 1#128) := by decide

/-- Vector PR5: `MADD`. -/
theorem test_madd_pr5 : run 0x00000011 4294967295#128 1#128 = some (.ok, 4294967296#128, 0#128) := by decide

/-- Vector PR7: `MADD`. -/
theorem test_madd_pr7 : run 0x00000011 0xFFFFFFFFFFFFFFFFFFFFFFFF#128 0xFFFFFFFFFFFFFFFFFFFFFFFF#128 = some (.ok, 0xFFFFFFFFFFFFFFFFFFFFFFFE#128, 1#128) := by decide

/-- Vector PR9: `MSUB`. -/
theorem test_msub_pr9 : run 0x00000012 4294967296#128 1#128 = some (.ok, 4294967295#128, 0#128) := by decide

/-- Vector PR10: `MSUB`. -/
theorem test_msub_pr10 : run 0x00000012 0#128 1#128 = some (.ok, 0xFFFFFFFFFFFFFFFFFFFFFFFF#128, 1#128) := by decide

/-- Vector PR13: `MMUL`. -/
theorem test_mmul_pr13 : run 0x00000013 0xFFFFFFFFFFFFFFFFFFFFFFFF#128 0xFFFFFFFFFFFFFFFFFFFFFFFF#128 = some (.ok, 1#128, 0xFFFFFFFFFFFFFFFFFFFFFFFE#128) := by decide

/-- Vector PR14: `MMUL`. -/
theorem test_mmul_pr14 : run 0x00000013 0x1000000000000#128 0x1000000000000#128 = some (.ok, 0#128, 1#128) := by decide

/-- Vector PR20: `MDIV`. -/
theorem test_mdiv_pr20 : run 0x00000014 0xFFFFFFFFFFFFFFFFFFFFFFFF#128 1#128 = some (.ok, 0xFFFFFFFFFFFFFFFFFFFFFFFF#128, 0#128) := by decide

/-- Vector PR23: `MDIV`. -/
theorem test_mdiv_pr23 : run 0x00000014 0xFFFFFFFFFFFFFFFFFFFFFFFF#128 0x800000000000000000000000#128 = some (.ok, 1#128, 0x7FFFFFFFFFFFFFFFFFFFFFFF#128) := by decide

/-- Vector PR25: `MUL10`. -/
theorem test_mul10_pr25 : run 0x00000015 0x199999999999999999999999#128 0#128 = some (.ok, 0xFFFFFFFFFFFFFFFFFFFFFFFA#128, 0#128) := by decide

/-- Vector PR26: `MUL10`. -/
theorem test_mul10_pr26 : run 0x00000015 0x19999999999999999999999A#128 0#128 = some (.ok, 0x19999999999999999999999A#128, 1#128) := by decide

/-- Vector PR28: `DIV10`. -/
theorem test_div10_pr28 : run 0x00000016 12345#128 0#128 = some (.ok, 1234#128, 5#128) := by decide

/-- Vector PR30: `DIV10`. -/
theorem test_div10_pr30 : run 0x00000016 0xFFFFFFFFFFFFFFFFFFFFFFFF#128 0#128 = some (.ok, 0x199999999999999999999999#128, 5#128) := by decide

/-- Vector CP4: `CMPABS`. -/
theorem test_cmpabs_cp4 : run 0x00000018 (pack true 0 3) (pack false 2 299) = some (.ok, 0#128, 1#128) := by decide

/-- Vector CP5: `CMPABS`. -/
theorem test_cmpabs_cp5 : run 0x00000018 0xFFFFFFFFFFFFFFFFFFFFFFFF#128 (pack false 1 0xFFFFFFFFFFFFFFFFFFFFFFFF) = some (.ok, 0#128, 0#128) := by decide

/-- Vector CP9: `NORM`. -/
theorem test_norm_cp9 : run 0x00000019 0x000200FF000000000000000000000007#128 (pack false 2 9) = some (.ok, 0x000200FF000000000000000000000007#128, (pack false 2 9)) := by decide

/-- Vector CP11: `NORM`. -/
theorem test_norm_cp11 : run 0x00000019 0x33B2E3C9FD0803CE8000000#128 (pack false 3 1) = some (.ok, (pack false 1 0x204FCE5E3E25026110000000), (pack false 3 1)) := by decide

/-- Vector CP17: `CMP`. -/
theorem test_cmp_cp17 : run 0x0000001A (pack true 0 2) (pack true 0 3) = some (.ok, 0#128, 1#128) := by decide

/-- Vector CP20: `CMP`. -/
theorem test_cmp_cp20 : run 0x0000001A (pack true 2 100) 0#128 = some (.ok, 0#128, 4294967295#128) := by decide

/-- Vector CP22: `LT`. -/
theorem test_lt_cp22 : run 0x0000001B (pack true 0 0) 0#128 = some (.ok, 0#128, 0#128) := by decide

/-- Vector CP23: `LT`. -/
theorem test_lt_cp23 : run 0x0000001B (pack true 0 3) (pack true 0 2) = some (.ok, 0#128, 1#128) := by decide

/-- Vector CP24: `LE`. -/
theorem test_le_cp24 : run 0x0000001C (pack false 1 10) 1#128 = some (.ok, 0#128, 1#128) := by decide

/-- Vector CP25: `LE`. -/
theorem test_le_cp25 : run 0x0000001C 2#128 1#128 = some (.ok, 0#128, 0#128) := by decide

/-- Vector CP26: `GT`. -/
theorem test_gt_cp26 : run 0x0000001D 0#128 (pack true 0 5) = some (.ok, 0#128, 1#128) := by decide

/-- Vector CP27: `GT`. -/
theorem test_gt_cp27 : run 0x0000001D 0xFFFFFFFFFFFFFFFFFFFFFFFF#128 (pack false 1 0xFFFFFFFFFFFFFFFFFFFFFFFF) = some (.ok, 0#128, 0#128) := by decide

/-- Vector CP28: `GE`. -/
theorem test_ge_cp28 : run 0x0000001E (pack true 0 0) (pack false 5 0) = some (.ok, 0#128, 1#128) := by decide

/-- Vector CP29: `GE`. -/
theorem test_ge_cp29 : run 0x0000001E 1#128 2#128 = some (.ok, 0#128, 0#128) := by decide

/-- Vector CP31: `EQ`. -/
theorem test_eq_cp31 : run 0x0000001F 0x00021234000000000000000000000005#128 (pack false 2 5) = some (.ok, 0#128, 1#128) := by decide

/-- Vector CP32: `EQ`. -/
theorem test_eq_cp32 : run 0x0000001F 0xFFFFFFFFFFFFFFFFFFFFFFFF#128 (pack false 1 0xFFFFFFFFFFFFFFFFFFFFFFFF) = some (.ok, 0#128, 1#128) := by decide

/-- Vector CP33: `NE`. -/
theorem test_ne_cp33 : run 0x00000020 1#128 (pack true 0 1) = some (.ok, 0#128, 1#128) := by decide

/-- Vector CP34: `NE`. -/
theorem test_ne_cp34 : run 0x00000020 0#128 (pack true 0 0) = some (.ok, 0#128, 0#128) := by decide

/-- Vector AR3: `ADD`. -/
theorem test_add_ar3 : run 0x00000028 (pack true 1 15) (pack false 2 25) = some (.ok, (pack true 2 125), 0#128) := by decide

/-- Vector AR13: `ADD`. -/
theorem test_add_ar13 : run 0x00000028 (pack false 1 1) 0x204FCE5E3E25026110000000#128 = some (.ok, (pack false 1 0x204FCE5E3E25026110000001), 0#128) := by decide

/-- Vector AR17: `SUB`. -/
theorem test_sub_ar17 : run 0x00000029 0#128 (pack false 3 0) = some (.ok, (pack true 3 0), 0#128) := by decide

/-- Vector S11c: `SUB`. -/
theorem test_sub_s11c : run 0x00000029 (pack false 2 1) (pack false 1 25) = some (.ok, (pack true 2 249), 0#128) := by decide

/-- Vector AR25: `MUL`. -/
theorem test_mul_ar25 : run 0x0000002A (pack true 0 2) (pack true 0 3) = some (.ok, 6#128, 0#128) := by decide

/-- Vector AR30: `MUL`. -/
theorem test_mul_ar30 : run 0x0000002A (pack false 15 0x221B262DD8000) (pack false 14 0x5AF3107A4000) = some (.ok, 1#128, 0#128) := by decide

/-- Vector AR44: `DIV`. -/
theorem test_div_ar44 : run 0x0000002B 1#128 (pack false 1 3) = some (.ok, 3#128, (pack false 1 1)) := by decide

/-- Vector AR49: `DIV`. -/
theorem test_div_ar49 : run 0x0000002B 1#128 (pack false 28 0x33B2E3C9FD0803CE8000000) = some (.small, 0#128, 0#128) := by decide

/-- Vector AR53: `NEG`. -/
theorem test_neg_ar53 : run 0x0000002C 0#128 0#128 = some (.ok, (pack true 0 0), 0#128) := by decide

/-- Vector AR54: `NEG`. -/
theorem test_neg_ar54 : run 0x0000002C (pack false 29 1) 0#128 = some (.ok, (pack true 29 1), 0#128) := by decide

/-- Vector RD10: `BRND`. -/
theorem test_brnd_rd10 : run 0x00000030 (pack false 28 0xFFFFFFFFFFFFFFFFFFFFFFFF) 0#128 = some (.ok, 8#128, 0#128) := by decide

/-- Vector RD12: `BRND`. -/
theorem test_brnd_rd12 : run 0x00000030 (pack false 3 2500) 0#128 = some (.ok, 2#128, 0#128) := by decide

/-- Vector RD14: `ROUND`. -/
theorem test_round_rd14 : run 0x00000031 (pack true 1 25) 0#128 = some (.ok, (pack true 0 3), 0#128) := by decide

/-- Vector RD20: `ROUND`. -/
theorem test_round_rd20 : run 0x00000031 (pack false 1 0xFFFFFFFFFFFFFFFFFFFFFFFF) 0#128 = some (.ok, 0x19999999999999999999999A#128, 0#128) := by decide

/-- Vector RD24: `FLOOR`. -/
theorem test_floor_rd24 : run 0x00000032 (pack true 1 20) 0#128 = some (.ok, (pack true 0 2), 0#128) := by decide

/-- Vector RD29: `FLOOR`. -/
theorem test_floor_rd29 : run 0x00000032 (pack true 28 1) 0#128 = some (.ok, (pack true 0 1), 0#128) := by decide

/-- Vector RD31: `TRUNC`. -/
theorem test_trunc_rd31 : run 0x00000033 (pack true 1 29) 0#128 = some (.ok, (pack true 0 2), 0#128) := by decide

/-- Vector RD36: `TRUNC`. -/
theorem test_trunc_rd36 : run 0x00000033 0x000200FF000000000000000000000005#128 0#128 = some (.ok, 0#128, 0#128) := by decide

/-- Vectors AR10, AR33, AR36, AR46, PR19, AR14, CP7, BF42: every status code (R180). -/
theorem test_status_codes :
    runStatus 0x28 (pack false 0 (2 ^ 96 - 1)) (pack false 0 1) = some .big ∧
    runStatus 0x2A (pack false 0 (2 ^ 48)) (pack false 0 (2 ^ 48)) = some .big ∧
    runStatus 0x2B (pack false 0 123) 0 = some .divByZero ∧
    runStatus 0x2B (pack false 28 5) (pack false 28 1) = some .small ∧
    runStatus 0x14 5#128 0 = some .divByZero ∧
    runStatus 0x80000028 1#128 1#128 = some .badInput ∧
    runStatus 0x18 (pack false 29 1) 1#128 = some .badInput ∧
    runStatus 0x0B 1#128 0 = some .badInput := by decide

/-! ## The register window -/

/-- R43, R45: word 2 of A is A[95:64]. -/
theorem test_write_word_of_a :
    (memWrite 0x08 0xDEADBEEF#32 State.reset).a = 0x00000000DEADBEEF0000000000000000#128 := by decide

/-- R42, R21: word 3 of B is the metadata word. -/
theorem test_read_word_of_b :
    memRead 0x1C { State.reset with b := pack true 1 25 } = 0x80010000#32 := by decide

/-- R24: STATUS after a BIG completion is ST = 1 with DONE = 1. -/
theorem test_status_word : memRead 0x44 (raiseBadInput State.reset) = 0x00000204#32 := by decide

/-- R23: CMD reads back without its reserved bits. -/
theorem test_cmd_word : cmdWord (accept 0xFFFFFFFF#32 State.reset).cmd = 0x8000007F#32 := by decide

/-- R206: a CMD write while BUSY = 1 is ignored. -/
theorem test_cmd_write_while_busy :
    memWrite 0x40 0x29#32 { State.reset with busy := true } = { State.reset with busy := true } := by decide

/-- R46: byte 15 of the interchange image of -2.5 holds the sign. -/
theorem test_image : (image (pack true 1 25)).getD 15 0 = 0x80#8 ∧ (image (pack true 1 25)).getD 0 0 = 25#8 := by decide

/-- R104: the vector PR20, where alignment needs the 97th bit of the working divisor. -/
theorem test_restoring_divider : restoringDivide (2 ^ 96 - 1) 1 = (2 ^ 96 - 1, 0) := by decide

/-! ## Witnesses: states and operands that meet the hypotheses of the statements -/

/-- A block running a command on operands a and b, its completion due. -/
def ready (a b : Value) : State :=
  { State.reset with busy := true, latch := ⟨0x28#6, false, false, a, b⟩ }

/-- An idle block that meets the given input next. -/
def next (e : HostEvent) : State := { State.reset with script := [e, .idle] }

theorem witness_DecodeAndEncodeAgree :
    (Instr.trunc true).wellFormed = true ∧ decode 0xFFFFFFB3#32 = .ok (.trunc true) ∧ decode 0x00000000#32 = .ok .zero := by
  decide

theorem witness_UnassignedAndIgnoredBits :
    (∀ n ∈ [0x0B, 0x0F, 0x17, 0x21, 0x27, 0x2D, 0x2F, 0x34, 0x3F], unassignedCodes n) ∧
    State.reset.busy = false ∧
    (let s : State := { ready 0 0 with latch := ⟨0x3F#6, true, true, 0, 0⟩ }
     unassignedCodes s.latch.opc.toNat ∧ completionDue s = true ∧ resetNext s = false) ∧
    ((0x7FFFFFE8#32).toNat % 128 = (0x00000068#32).toNat % 128 ∧
      (0x7FFFFFE8#32).getLsbD 31 = (0x00000068#32).getLsbD 31) ∧
    (wordOpc 0x28#32 ≠ 0x02#6 ∧ wordOpc 0x28#32 ≠ 0x06#6 ∧ wordOpc 0x28#32 ≠ 0x09#6) ∧
    opcStatusGroup (wordOpc 0x1A#32) = false := by
  unfold unassignedCodes; decide

theorem witness_WrittenCommandsAreTheCommands :
    (Command.mk 0x33#6 true none).wellFormed = true ∧ (Instr.trunc true).written = Command.mk 0x33#6 true none ∧
    (Instr.setsign true).written = (Pseudo.setneg.expand).written := by decide

/-- One offset for each clause, at the ends of its range. -/
theorem witness_WindowWriteEffects :
    (∀ off ∈ [0x00, 0x0C], off < 0x100 ∧ off % 4 = 0 ∧ off < 0x10) ∧
    (∀ off ∈ [0x10, 0x1C], off < 0x100 ∧ off % 4 = 0 ∧ 0x10 ≤ off ∧ off < 0x20) ∧
    (∀ off ∈ [0x20, 0x3C, 0x44, 0x48, 0xFC], off < 0x100 ∧ off % 4 = 0 ∧ 0x20 ≤ off ∧ off ≠ 0x40) ∧
    (0x40 < 0x100 ∧ 0x40 % 4 = 0 ∧ State.reset.busy = false ∧ (ready 0 0).busy = true) := by decide

theorem witness_WindowReadReturnsTheRegisterWord :
    (∀ off ∈ [0x00, 0x0C], off < 0x100 ∧ off % 4 = 0 ∧ off < 0x10) ∧
    (∀ off ∈ [0x10, 0x1C], off < 0x100 ∧ off % 4 = 0 ∧ 0x10 ≤ off ∧ off < 0x20) ∧
    (∀ off ∈ [0x20, 0x2C], off < 0x100 ∧ off % 4 = 0 ∧ 0x20 ≤ off ∧ off < 0x30) ∧
    (∀ off ∈ [0x30, 0x3C], off < 0x100 ∧ off % 4 = 0 ∧ 0x30 ≤ off ∧ off < 0x40) ∧
    (∀ off ∈ [0x40, 0x44, 0x48, 0xFC], off < 0x100 ∧ off % 4 = 0) ∧
    (let s := next (.read (Config.base + 0x44) 4)
     s.script = .read (Config.base + 0x44) 4 :: [.idle] ∧ completionDue s = false) := by
  refine ⟨by decide, by decide, by decide, by decide, by decide, rfl, rfl⟩

theorem witness_BadAccessIsABusError :
    (0xFF < 0x100 ∧ ((4 : Nat) ≠ 4 ∨ 0xFF % 4 ≠ 0)) ∧ (0x00 < 0x100 ∧ ((1 : Nat) ≠ 4 ∨ 0x00 % 4 ≠ 0)) ∧
    (0xFC < 0x100 ∧ ((8 : Nat) ≠ 4 ∨ 0xFC % 4 ≠ 0)) ∧
    (let s := next (.read (Config.base + 0xFF) 4)
     s.script = .read (Config.base + 0xFF) 4 :: [.idle] ∧ completionDue s = false) ∧
    (let s := next (.write (Config.base + 0x40) 1 0)
     s.script = .write (Config.base + 0x40) 1 0 :: [.idle] ∧ completionDue s = false) := by
  refine ⟨by decide, by decide, by decide, ⟨rfl, rfl⟩, rfl, rfl⟩

theorem witness_AccessOutsideTheWindowFaults :
    let s := next (.write (Config.base + 0x100) 4 0)
    (Config.base + 0x100 < Config.base ∨ Config.base + 0x100 ≤ Config.base + 0x100) ∧
    s.script = .write (Config.base + 0x100) 4 0 :: [.idle] ∧ completionDue s = false :=
  ⟨.inr (Nat.le_refl _), rfl, rfl⟩

theorem witness_CmdRegisterReadsBack : State.reset.busy = false ∧ (ready 0 0).busy = true := by decide

theorem witness_StepRunsTheDecodedCommand :
    resetNext (ready 0 0) = false ∧ completionDue (ready 0 0) = true ∧
    decodeFields (ready 0 0).latch.opc (ready 0 0).latch.v (ready 0 0).latch.nd = .ok (.add false) ∧
    decodeTableWord 32 0x8000002B = some (.div true) := by decide

/-- A step that is neither reset nor completion: a poll while a command runs, and a CMD write accepted. -/
theorem witness_StepRunsTheDecodedCommand_cycle :
    (let s : State := { ready 5 7 with due := 2, script := [.wait] }
     s.script = .wait :: [] ∧ resetNext s = false ∧ completionDue s = false ∧ ∃ t, step s = .next t) ∧
    (let s := next (.write (Config.base + 0x40) 4 0x28#32)
     resetNext s = false ∧ completionDue s = false ∧ s.busy = false ∧ ∃ t, step s = .next t ∧ t.busy = true) ∧
    (State.reset.script = [] ∧ completionDue State.reset = false) := by
  refine ⟨⟨rfl, rfl, rfl, _, rfl⟩, ⟨rfl, rfl, rfl, accept 0x28#32 { State.reset with script := [.idle] }, ?_, rfl⟩,
    rfl, rfl⟩
  have h : windowOffset (Config.base + 0x40) = some 0x40 := windowOffset_base_add (by decide)
  show busWrite (Config.base + 0x40) 4 0x28#32 { State.reset with script := [.idle] } = _
  simp only [busWrite, h]
  rfl

theorem witness_ResetSignalResetsAndAbandons :
    ({ ready 1 1 with script := [.reset, .idle] } : State).script = .reset :: [.idle] := by decide

theorem witness_StepKeepsProtocolInv :
    ProtocolInv State.reset ∧ step State.reset = .next State.reset ∧
    ProtocolInv { ready 5 7 with cmd := ⟨0x28#6, false, false⟩ } ∧
    ∃ t, step { ready 5 7 with cmd := ⟨0x28#6, false, false⟩ } = .next t := by
  refine ⟨?_, rfl, ?_, _, rfl⟩ <;> unfold ProtocolInv <;> decide

theorem witness_ResultsDependOnTheLatchOnly :
    let s : State := { ready 5 7 with a := 1, b := 2, r := 3, x := 4 }
    s.latch = (ready 5 7).latch ∧ s.draws = (ready 5 7).draws ∧ s.a ≠ (ready 5 7).a := by decide

/-- Three cycles before the completion, the host writes A, writes CMD and polls. -/
theorem witness_RunningCommandCompletes :
    let s : State :=
      { ready 5 7 with
        due := 3
        script := Script.wr 0x00 1#32 ++ Script.wr 0x40 0x29#32 ++ Script.wait }
    s.busy = true ∧ ∀ e ∈ s.script, quiet e = true := by
  refine ⟨rfl, ?_⟩
  have h0 : windowOffset (Config.base + 0) = some 0 := windowOffset_base_add (by decide)
  have h40 : windowOffset (Config.base + 0x40) = some 0x40 := windowOffset_base_add (by decide)
  simp [Script.wr, Script.wait, quiet, accessFault, accessOk] at *
  simp [h0, h40]

theorem witness_HostTransaction :
    ∃ s : State, s.busy = false ∧
      s.script = Script.ldA (pack false 2 123) ++ Script.ldB (pack false 3 4567) ++ Script.exec 0x28#32 ++ [.idle] :=
  ⟨{ State.reset with
      script := Script.ldA (pack false 2 123) ++ Script.ldB (pack false 3 4567) ++ Script.exec 0x28#32 ++ [.idle] }, rfl, rfl⟩

/-- The integer argument at 0, 95, 96 and -1. -/
theorem witness_MantissaBitReadAndWrite :
    (intArg (ready 0 0#128) = (0 : Nat) ∧ 0 ≤ 95) ∧ (intArg (ready 0 95#128) = (95 : Nat) ∧ 95 ≤ 95) ∧
    95 < intArg (ready 0 96#128) ∧ intArg (ready 0 0xFFFFFFFF#128) < 0 := by decide

theorem witness_MdivQuotientAndRemainder :
    mant (ready 100 7).latch.b ≠ 0 ∧ mant (ready 5 (pack true 28 0)).latch.b = 0 := by decide

theorem witness_CmpabsComparesNormalisedMantissas :
    let s := ready (pack false 2 123) (pack false 3 1230)
    let u := ready (pack false 29 1) 1
    canon s.latch.a = true ∧ canon s.latch.b = true ∧ (canon u.latch.a = false ∨ canon u.latch.b = false) := by decide

theorem witness_CmpFollowsTheSignedOrder :
    let s := ready (pack true 1 25) (pack false 0 1)
    let u := ready 1 (pack false 29 1)
    canon s.latch.a = true ∧ canon s.latch.b = true ∧ (canon u.latch.a = false ∨ canon u.latch.b = false) := by decide

theorem witness_PredicatesReadCmp :
    let s := ready (pack false 1 15) (pack false 0 2)
    let u := ready (pack false 255 1) (pack false 29 1)
    canon s.latch.a = true ∧ canon s.latch.b = true ∧ (canon u.latch.a = false ∨ canon u.latch.b = false) := by decide

/-- Normalisation completes on 1.23 and 1.230; a zero, and two signs, decide where it does not. -/
theorem witness_CompareIsExactWhenNormalisationCompletes :
    (let s := ready (pack false 2 123) (pack false 3 1230)
     canon s.latch.a = true ∧ canon s.latch.b = true ∧ NormCompletes s.latch.a s.latch.b) ∧
    (let s := ready (pack false 0 (2 ^ 96 - 1)) (pack true 28 1)
     canon s.latch.a = true ∧ canon s.latch.b = true ∧ ¬NormCompletes s.latch.a s.latch.b ∧
      sgn s.latch.a ≠ sgn s.latch.b) ∧
    (let s := ready (pack false 0 (2 ^ 96 - 1)) (pack false 28 0)
     canon s.latch.a = true ∧ canon s.latch.b = true ∧ ¬NormCompletes s.latch.a s.latch.b ∧ mant s.latch.b = 0) := by
  unfold NormCompletes; decide

theorem witness_EarlyStopOnExtremeMagnitudes :
    (let a := pack false 0 (2 ^ 96 - 1)
     let b := pack false 1 (2 ^ 96 - 1)
     canon a = true ∧ canon b = true ∧ scl (normalize a b).1 < scl (normalize a b).2 ∧
      scl (normalize b a).2 < scl (normalize b a).1) ∧
    (ready (pack false 0 (2 ^ 96 - 1)) (pack false 1 (2 ^ 96 - 1))).latch.a = pack false 0 (2 ^ 96 - 1) ∧
    (ready (pack false 0 (10 ^ 28)) (pack false 1 (2 ^ 96 - 1))).latch.b = pack false 1 (2 ^ 96 - 1) := by decide

theorem witness_NormAlignsScales :
    let s := ready (pack false 0 15) (pack true 2 5)
    let u := ready (pack false 29 1) 1
    canon s.latch.a = true ∧ canon s.latch.b = true ∧ scl s.latch.a ≤ scl s.latch.b ∧
    (canon u.latch.a = false ∨ canon u.latch.b = false) ∧
    scl (ready 1 1).latch.b ≤ scl (ready 1 1).latch.a := by decide

theorem witness_NormalizeProperties :
    canon (pack false 0 0) = true ∧ canon (pack false 28 1) = true ∧ mant (pack false 0 0) = 0 := by decide

/-- One pair of operands for each outcome of ADD. -/
theorem witness_AddResult :
    ([(pack false 2 0, pack false 0 5), (pack false 0 5, pack false 2 0), (pack false 0 1, pack false 28 1),
        (pack true 0 (2 ^ 95), pack true 0 (2 ^ 95)), (pack true 1 15, pack false 2 25), (pack false 2 25, pack true 1 15),
        (pack false 2 123, pack true 2 123)].all
      fun p => canon (ready p.1 p.2).latch.a && canon (ready p.1 p.2).latch.b) = true ∧
    canon (ready (pack false 29 1) 1).latch.a = false := by decide

theorem witness_SubIsAddOfTheNegated :
    (let s := ready (pack false 0 0) (pack false 3 0)
     canon s.latch.a = true ∧ canon s.latch.b = true ∧ mant s.latch.a = 0) ∧
    (let s := ready (pack true 4 9) (pack false 28 0)
     canon s.latch.a = true ∧ canon s.latch.b = true ∧ mant s.latch.a ≠ 0 ∧ mant s.latch.b = 0) ∧
    (let s := ready (pack false 0 (2 ^ 96 - 1)) (pack true 0 1)
     canon s.latch.a = true ∧ canon s.latch.b = true ∧ mant s.latch.a ≠ 0 ∧ mant s.latch.b ≠ 0 ∧
      sgn s.latch.a ≠ sgn s.latch.b ∧
      2 ^ 96 ≤ mant (normalize s.latch.a s.latch.b).1 + mant (normalize s.latch.a s.latch.b).2) ∧
    (∃ t, exec (.sub false) (ready 7 5) = .next t ∧ t.st ≠ .big) ∧
    canon (ready 1 (pack false 29 1)).latch.b = false := by
  refine ⟨by decide, by decide, by decide, ⟨_, rfl, ?_⟩, ?_⟩ <;> decide

/-- Equal signs whose sum just fits, and different signs. -/
theorem witness_AddAndSubAreExact :
    (let s := ready (pack false 0 (2 ^ 96 - 2)) (pack false 0 1)
     canon s.latch.a = true ∧ canon s.latch.b = true ∧ NormCompletes s.latch.a s.latch.b ∧
      sgn s.latch.a = sgn s.latch.b ∧
      mant (normalize s.latch.a s.latch.b).1 + mant (normalize s.latch.a s.latch.b).2 < 2 ^ 96) ∧
    (let s := ready (pack true 1 25) (pack false 28 1)
     canon s.latch.a = true ∧ canon s.latch.b = true ∧ NormCompletes s.latch.a s.latch.b ∧
      sgn s.latch.a ≠ sgn s.latch.b ∧
      mant (normalize s.latch.a s.latch.b).1 + mant (normalize s.latch.a s.latch.b).2 < 2 ^ 96) := by
  unfold NormCompletes; decide

/-- One pair of operands for each outcome of MUL. -/
theorem witness_MulResult :
    ([(pack true 0 0, pack true 0 5), (pack false 0 (2 ^ 48), pack false 0 (2 ^ 48)), (pack false 14 3, pack false 14 7),
        (pack false 15 1, pack false 14 1), (pack false 28 1, pack false 28 1)].all
      fun p => canon (ready p.1 p.2).latch.a && canon (ready p.1 p.2).latch.b) = true ∧
    canon (ready (pack false 29 1) 1).latch.a = false := by decide

/-- One pair of operands for each outcome of DIV. -/
theorem witness_DivResult :
    ([(pack false 0 0, pack true 3 0), (pack true 2 0, pack false 0 5), (pack false 28 5, pack false 28 1),
        (pack false 28 (5 * 2 ^ 32), pack false 28 5), (pack false 28 1, pack false 28 3), (pack true 0 7, pack false 0 2)].all
      fun p => canon (ready p.1 p.2).latch.a && canon (ready p.1 p.2).latch.b) = true ∧
    canon (ready (pack false 29 1) 1).latch.a = false := by decide

theorem witness_DivisionIdentity :
    let s := ready (pack true 0 7) (pack false 0 2)
    canon s.latch.a = true ∧ canon s.latch.b = true ∧ NormCompletes s.latch.a s.latch.b ∧
    ∃ t, exec (.div false) s = .next t ∧ t.st = .ok := by
  refine ⟨by decide, by decide, by unfold NormCompletes; decide, _, rfl, by decide⟩

theorem witness_ArithmeticLaws :
    (let s := ready (pack true 7 123) (pack false 0 0)
     canon s.latch.a = true ∧ canon s.latch.b = true ∧ mant s.latch.a ≠ 0 ∧ mant s.latch.b = 0) ∧
    (let s := ready (pack false 3 4567) (pack false 2 123)
     canon s.latch.a = true ∧ canon s.latch.b = true ∧ NormCompletes s.latch.a s.latch.b ∧
      ¬(mant s.latch.a = 0 ∧ mant s.latch.b = 0) ∧
      mant (normalize s.latch.a s.latch.b).1 + mant (normalize s.latch.a s.latch.b).2 < 2 ^ 96) ∧
    (let s := ready (pack true 28 0) (pack false 0 5)
     canon s.latch.a = true ∧ canon s.latch.b = true ∧ mant s.latch.a = 0 ∧ mant s.latch.b ≠ 0) := by
  unfold NormCompletes; decide

theorem witness_BrndRoundsHalfEven :
    canon (ready (pack false 28 1) 0).latch.a = true ∧ canon (ready (pack false 29 1) 0).latch.a = false := by decide

theorem witness_RoundRoundsHalfAwayFromZero :
    canon (ready (pack true 1 25) 0).latch.a = true ∧ canon (ready (pack true 255 25) 0).latch.a = false := by decide

theorem witness_FloorIsTheLargestIntegerBelow :
    canon (ready (pack true 3 1) 0).latch.a = true ∧ canon (ready (pack true 29 1) 0).latch.a = false := by decide

theorem witness_TruncDropsTheFraction :
    canon (ready (pack true 1 5) 0).latch.a = true ∧ canon (ready (pack true 128 5) 0).latch.a = false := by decide

theorem witness_RoundingCommonProperties :
    (let s := ready (pack false 0 7) 0
     canon s.latch.a = true ∧ scl s.latch.a = 0 ∧ sgn s.latch.a = false) ∧
    (let s := ready (pack true 28 7) 0
     canon s.latch.a = true ∧ scl s.latch.a ≠ 0 ∧ sgn s.latch.a = true) ∧
    (let s := ready (pack true 28 0) 0
     canon s.latch.a = true ∧ mant s.latch.a = 0) := by decide

theorem witness_NullDestinationIsBadInput : opcStatusGroup (wordOpc 0x19#32) = false := by decide

theorem witness_NonCanonicalOperandIsBadInput :
    let s := ready (pack false 29 1) 1
    let u := ready 1 (pack false 29 1)
    (canon s.latch.a = false ∨ canon s.latch.b = false) ∧ (canon u.latch.a = false ∨ canon u.latch.b = false) ∧
    canon s.latch.a = false := by decide

/-- A next state with each status but OK: BIG, SMALL, DIV_BY_ZERO, BAD_INPUT. -/
theorem witness_ErrorPathOutputs :
    (∃ t, exec (.add false) (ready (pack false 0 (2 ^ 96 - 1)) 1) = .next t ∧ t.st = .big) ∧
    (∃ t, exec (.div false) (ready (pack false 28 5) (pack false 28 1)) = .next t ∧ t.st = .small) ∧
    (∃ t, exec .mdiv (ready 5 0) = .next t ∧ t.st = .divByZero) ∧
    (∃ t, exec .cmp (ready (pack false 29 1) 0) = .next t ∧ t.st = .badInput) := by
  refine ⟨⟨_, rfl, ?_⟩, ⟨_, rfl, ?_⟩, ⟨_, rfl, ?_⟩, ⟨_, rfl, ?_⟩⟩ <;> decide

theorem witness_ReservedBitsDoNotMatter :
    let s := ready 0x0002123400000000000000000000000C#128 (pack false 2 5)
    let u := ready (pack false 2 12) 0x7F02FFFF000000000000000000000005#128
    s.latch.a ≠ u.latch.a ∧ SameFields s.latch.a u.latch.a ∧ SameFields s.latch.b u.latch.b ∧ s.draws = u.draws ∧
    SameFields s.r u.r ∧ SameFields s.x u.x := by
  unfold SameFields; decide

theorem witness_SafeStepsNeverGiveBadInput :
    (resetNext (ready 1 2) = false ∧ completionDue (ready 1 2) = true ∧ hostFault (ready 1 2) = none) ∧
    (resetNext (ready (pack false 29 1) 2) = false ∧ completionDue (ready (pack false 29 1) 2) = true ∧
      hostFault (ready (pack false 29 1) 2) = some .nonCanonical) := by decide

theorem witness_WordAdderIsTheAdder : 2 ^ 96 - 1 < 2 ^ 96 ∧ 1 < 2 ^ 96 := by decide

theorem witness_PartialProductsGiveTheProduct : 2 ^ 96 - 1 < 2 ^ 96 ∧ 2 ^ 64 < 2 ^ 96 := by decide

theorem witness_RestoringDividerDivides : 2 ^ 96 - 1 < 2 ^ 96 ∧ 0 < 1 ∧ 1 < 2 ^ 96 := by decide

end Sys2Proof.Tests
end

section
/-! The CMD register as the host writes and reads it (R23, R43, R206), and what the register window reads after reset
(R32). -/

namespace Sys2Proof.Machine

/-! ### The CMD word -/

/-- R23's layout of the CMD word, `{ND, 24'b0, V, OPC}`. -/
theorem cmdWord_eq_append (c : CmdReg) :
    cmdWord c = (BitVec.ofBool c.nd ++ (0#24 ++ (BitVec.ofBool c.v ++ c.opc)) : BitVec (1 + (24 + (1 + 6)))) := by
  have hopc := c.opc.isLt
  have hv := Bool.toNat_le c.v
  have hnd := Bool.toNat_le c.nd
  apply BitVec.eq_of_toNat_eq
  simp only [cmdWord, append_toNat_add, BitVec.toNat_ofNat, BitVec.toNat_ofBool]
  omega

/-- The CMD word bit by bit (R23): bits 30:7 are 0. -/
theorem getLsbD_cmdWord (c : CmdReg) (i : Nat) :
    (cmdWord c).getLsbD i = if i < 6 then c.opc.getLsbD i else if i = 6 then c.v else (decide (i = 31) && c.nd) := by
  rw [cmdWord_eq_append]
  simp only [BitVec.getLsbD_append, BitVec.getLsbD_ofBool, BitVec.getLsbD_zero]
  obtain hopc | rfl | habove := Nat.lt_trichotomy i 6
  · simp [hopc, show i < 1 + 6 by omega, show i < 24 + (1 + 6) by omega]
  · simp
  · have hnd : i - (24 + (1 + 6)) = 0 ↔ i ≤ 31 := by omega
    grind

/-- The bits the mask of R23 keeps are those of OPC, V and ND. -/
theorem getLsbD_cmdMask {i : Nat} (hi : i < 32) : (0x8000007F#32).getLsbD i = decide (i < 7 ∨ i = 31) := by
  decide +revert

/-- The fields of a command word, put back into a CMD word, are that word without bits 30:7 (R23). -/
theorem cmdWord_wordFields (w : Word32) : cmdWord ⟨wordOpc w, wordV w, wordNd w⟩ = w &&& 0x8000007F#32 := by
  apply BitVec.eq_of_getLsbD_eq
  intro i hi
  rw [getLsbD_cmdWord, BitVec.getLsbD_and, getLsbD_cmdMask hi]
  by_cases hopc : i < 6
  · simp [wordOpc, hopc, show i < 7 by omega]
  by_cases hv : i = 6
  · simp [wordV, hv]
  by_cases hnd : i = 31
  · simp [wordNd, hnd]
  · simp [hopc, hv, hnd, show ¬ i < 7 by omega]

theorem wordOpc_toNat (w : Word32) : (wordOpc w).toNat = w.toNat % 64 := by
  simp [wordOpc, BitVec.extractLsb'_toNat]

/-! ### The window at the offset of CMD -/

theorem memRead_cmd (s : State) : memRead 0x40 s = cmdWord s.cmd := rfl

theorem memWrite_cmd_of_idle {s : State} (v : Word32) (h : s.busy = false) : memWrite 0x40 v s = accept v s := by
  simp [memWrite, h]

theorem memWrite_cmd_of_busy {s : State} (v : Word32) (h : s.busy = true) : memWrite 0x40 v s = s := by
  simp [memWrite, h]

/-! ### The window after reset -/

@[simp] theorem regWord_zero (k : Nat) : regWord 0#128 k = 0#32 := by
  simp [regWord]

/-- Every branch of the window map reads a register that is 0 after reset, or is a reserved offset (R32, R40). -/
theorem memRead_reset (off : Nat) : memRead off State.reset = 0 := by
  unfold memRead
  split_ifs
  · exact regWord_zero (off / 4)
  · exact regWord_zero ((off - 0x10) / 4)
  · exact regWord_zero ((off - 0x20) / 4)
  · exact regWord_zero ((off - 0x30) / 4)
  · rfl
  · rfl
  · rfl

end Sys2Proof.Machine

namespace Sys2Proof.Proofs

open Sys2Proof.Machine

/-- Settles O12: a write while idle is an acceptance, whose CMD fields are the word's; a write while BUSY does nothing. -/
theorem cmdRegisterReadsBack : Obligations.CmdRegisterReadsBack := by
  refine ⟨fun s v hidle => ?_, fun s v hbusy => memWrite_cmd_of_busy v hbusy, memRead_reset 0x40⟩
  rw [memWrite_cmd_of_idle v hidle]
  exact ⟨cmdWord_wordFields v, accept_busy v s, wordOpc_toNat v, rfl, rfl⟩

/-- Settles O15: the fields are R32's table, and every word of the window is a view of them. -/
theorem resetState : Obligations.ResetState :=
  ⟨rfl, rfl, rfl, rfl, rfl, rfl, rfl, rfl, memRead_reset⟩

end Sys2Proof.Proofs
end

section
/-! The register window on the bus: a register's words (R21), what a word access at each offset of R40's map reads and
writes (R42, R43), which accesses the window takes (R44), and the step that performs one. -/

namespace Sys2Proof.Machine

/-! ### The words of a 128-bit register -/

theorem getLsbD_regWord (q : Value) (k : Nat) {j : Nat} (hj : j < 32) :
    (regWord q k).getLsbD j = q.getLsbD (32 * k + j) := by
  simp [regWord, hj]

/-- The word of a register at an aligned byte offset holds the bits from 8 times that offset on (R21, R40). -/
theorem getLsbD_regWord_of_aligned (q : Value) {n j : Nat} (hn : n % 4 = 0) (hj : j < 32) :
    (regWord q (n / 4)).getLsbD j = q.getLsbD (8 * n + j) := by
  rw [getLsbD_regWord q (n / 4) hj, show 32 * (n / 4) = 8 * n by omega]

/-- A register with word k replaced, bit by bit (R43). -/
theorem getLsbD_setRegWord (q : Value) (k : Nat) (v : Word32) {i : Nat} (hi : i < 128) :
    (setRegWord q k v).getLsbD i = if i / 32 = k then v.getLsbD (i % 32) else q.getLsbD i := by
  simp only [setRegWord, BitVec.getLsbD_or, BitVec.getLsbD_and, BitVec.getLsbD_not, BitVec.getLsbD_shiftLeft,
    BitVec.getLsbD_setWidth, BitVec.getLsbD_allOnes, hi, decide_true, Bool.true_and]
  obtain hbelow | hinside | habove : i < 32 * k ∨ i / 32 = k ∨ 32 * k + 32 ≤ i := by omega
  · simp [hbelow, show ¬ i / 32 = k by omega]
  · have hbit : i - 32 * k = i % 32 := by omega
    simp [hinside, hbit, show ¬ i < 32 * k by omega, show i % 32 < 128 by omega, Nat.mod_lt]
  · simp [show ¬ i < 32 * k by omega, show ¬ i / 32 = k by omega, show ¬ i - 32 * k < 32 by omega,
      BitVec.getLsbD_of_ge v (i - 32 * k) (by omega)]

theorem regWord_setRegWord_same (q : Value) {k : Nat} (v : Word32) (hk : k < 4) : regWord (setRegWord q k v) k = v := by
  apply BitVec.eq_of_getLsbD_eq
  intro j hj
  rw [getLsbD_regWord _ _ hj, getLsbD_setRegWord q k v (by omega), if_pos (by omega),
    show (32 * k + j) % 32 = j by omega]

theorem regWord_setRegWord_ne (q : Value) {k l : Nat} (v : Word32) (hl : l < 4) (hne : l ≠ k) :
    regWord (setRegWord q k v) l = regWord q l := by
  apply BitVec.eq_of_getLsbD_eq
  intro j hj
  rw [getLsbD_regWord _ _ hj, getLsbD_regWord _ _ hj, getLsbD_setRegWord q k v (by omega), if_neg (by omega)]

/-! ### What a word read returns in each range of the map (R40, R42) -/

theorem memRead_of_a {off : Nat} (s : State) (h : off < 0x10) : memRead off s = regWord s.a (off / 4) := by
  simp [memRead, h]

theorem memRead_of_b {off : Nat} (s : State) (hlo : 0x10 ≤ off) (hhi : off < 0x20) :
    memRead off s = regWord s.b ((off - 0x10) / 4) := by
  simp [memRead, hhi, show ¬ off < 0x10 by omega]

theorem memRead_of_r {off : Nat} (s : State) (hlo : 0x20 ≤ off) (hhi : off < 0x30) :
    memRead off s = regWord s.r ((off - 0x20) / 4) := by
  simp [memRead, hhi, show ¬ off < 0x10 by omega, show ¬ off < 0x20 by omega]

theorem memRead_of_x {off : Nat} (s : State) (hlo : 0x30 ≤ off) (hhi : off < 0x40) :
    memRead off s = regWord s.x ((off - 0x30) / 4) := by
  simp [memRead, hhi, show ¬ off < 0x10 by omega, show ¬ off < 0x20 by omega, show ¬ off < 0x30 by omega]

theorem memRead_of_reserved {off : Nat} (s : State) (h : 0x48 ≤ off) : memRead off s = 0 := by
  unfold memRead
  rw [if_neg, if_neg, if_neg, if_neg, if_neg, if_neg] <;> omega

/-- Only the words of A are read from A. -/
theorem memRead_with_a {off : Nat} (s : State) (q : Value) (h : 0x10 ≤ off) :
    memRead off { s with a := q } = memRead off s := by
  simp only [memRead, show ¬ off < 0x10 by omega, if_false]
  rfl

/-- Only the words of B are read from B. -/
theorem memRead_with_b {off : Nat} (s : State) (q : Value) (h : off < 0x10 ∨ 0x20 ≤ off) :
    memRead off { s with b := q } = memRead off s := by
  obtain ha | hafter := h
  · rw [memRead_of_a _ ha, memRead_of_a _ ha]
  · simp only [memRead, show ¬ off < 0x20 by omega, if_false]
    rfl

/-- What a read returns depends neither on the inputs to come nor on the time left. -/
theorem memRead_tick (off : Nat) (s : State) (rest : List HostEvent) :
    memRead off (tick { s with script := rest }) = memRead off s := rfl

/-! ### What a word write does in each range of the map (R43); CMD is `memWrite_cmd_of_idle`, `memWrite_cmd_of_busy` -/

theorem memWrite_of_a {off : Nat} (v : Word32) (s : State) (h : off < 0x10) :
    memWrite off v s = { s with a := setRegWord s.a (off / 4) v } := by
  simp [memWrite, h]

theorem memWrite_of_b {off : Nat} (v : Word32) (s : State) (hlo : 0x10 ≤ off) (hhi : off < 0x20) :
    memWrite off v s = { s with b := setRegWord s.b ((off - 0x10) / 4) v } := by
  simp [memWrite, hhi, show ¬ off < 0x10 by omega]

theorem memWrite_of_readOnly {off : Nat} (v : Word32) (s : State) (hlo : 0x20 ≤ off) (hne : off ≠ 0x40) :
    memWrite off v s = s := by
  simp [memWrite, hne, show ¬ off < 0x10 by omega, show ¬ off < 0x20 by omega]

/-- An operand word reads back as it was written (R43). -/
theorem memRead_memWrite_same {off : Nat} (v : Word32) (s : State) (h : off < 0x20) :
    memRead off (memWrite off v s) = v := by
  obtain ha | hb := Nat.lt_or_ge off 0x10
  · rw [memWrite_of_a v s ha, memRead_of_a _ ha]
    exact regWord_setRegWord_same s.a v (by omega)
  · rw [memWrite_of_b v s hb h, memRead_of_b _ hb h]
    exact regWord_setRegWord_same s.b v (by omega)

/-- Writing an operand word changes no other word of the window (R43): a word of the same register is another word of
it, and every other word is read from another register. -/
theorem memRead_memWrite_ne {off off' : Nat} (v : Word32) (s : State) (h : off < 0x20) (hal : off % 4 = 0)
    (hal' : off' % 4 = 0) (hne : off' ≠ off) : memRead off' (memWrite off v s) = memRead off' s := by
  obtain ha | hb := Nat.lt_or_ge off 0x10
  · rw [memWrite_of_a v s ha]
    obtain ha' | hother := Nat.lt_or_ge off' 0x10
    · rw [memRead_of_a _ ha', memRead_of_a _ ha']
      exact regWord_setRegWord_ne s.a v (by omega) (by omega)
    · exact memRead_with_a s _ hother
  · rw [memWrite_of_b v s hb h]
    by_cases hb' : 0x10 ≤ off' ∧ off' < 0x20
    · obtain ⟨hlo', hhi'⟩ := hb'
      rw [memRead_of_b _ hlo' hhi', memRead_of_b _ hlo' hhi']
      exact regWord_setRegWord_ne s.b v (by omega) (by omega)
    · exact memRead_with_b s _ (by omega)

/-! ### Which accesses the window takes (R44) -/

theorem accessOk_word {off : Nat} (h : off % 4 = 0) : accessOk off 4 = true := by
  simp [accessOk, h]

theorem accessOk_eq_false_iff (off width : Nat) : accessOk off width = false ↔ width ≠ 4 ∨ off % 4 ≠ 0 := by
  simp [accessOk, imp_iff_not_or]

theorem busRead_window {off : Nat} (width : Nat) (s : State) (h : off < 0x100) :
    busRead (Config.base + off) width s =
      if accessOk off width then .next (reply (.data (memRead off s)) s) else .next (reply .busError s) := by
  simp only [busRead, windowOffset_base_add h]

theorem busWrite_window {off : Nat} (width : Nat) (v : Word32) (s : State) (h : off < 0x100) :
    busWrite (Config.base + off) width v s =
      if accessOk off width then .next (memWrite off v s) else .next (reply .busError s) := by
  simp only [busWrite, windowOffset_base_add h]

theorem busRead_word {off : Nat} (s : State) (h : off < 0x100) (hal : off % 4 = 0) :
    busRead (Config.base + off) 4 s = .next (reply (.data (memRead off s)) s) := by
  rw [busRead_window 4 s h, if_pos (accessOk_word hal)]

theorem busWrite_word {off : Nat} (v : Word32) (s : State) (h : off < 0x100) (hal : off % 4 = 0) :
    busWrite (Config.base + off) 4 v s = .next (memWrite off v s) := by
  rw [busWrite_window 4 v s h, if_pos (accessOk_word hal)]

theorem busRead_bad {off width : Nat} (s : State) (h : off < 0x100) (hbad : width ≠ 4 ∨ off % 4 ≠ 0) :
    busRead (Config.base + off) width s = .next (reply .busError s) := by
  simp [busRead_window width s h, (accessOk_eq_false_iff off width).mpr hbad]

theorem busWrite_bad {off width : Nat} (v : Word32) (s : State) (h : off < 0x100) (hbad : width ≠ 4 ∨ off % 4 ≠ 0) :
    busWrite (Config.base + off) width v s = .next (reply .busError s) := by
  simp [busWrite_window width v s h, (accessOk_eq_false_iff off width).mpr hbad]

theorem accessFault_read_bad {off width : Nat} (busy : Bool) (h : off < 0x100) (hbad : width ≠ 4 ∨ off % 4 ≠ 0) :
    accessFault (.read (Config.base + off) width) busy = some .badAccess := by
  simp [accessFault, windowOffset_base_add h, (accessOk_eq_false_iff off width).mpr hbad]

theorem accessFault_write_bad {off width : Nat} (v : Word32) (busy : Bool) (h : off < 0x100)
    (hbad : width ≠ 4 ∨ off % 4 ≠ 0) :
    accessFault (.write (Config.base + off) width v) busy = some .badAccess := by
  simp [accessFault, windowOffset_base_add h, (accessOk_eq_false_iff off width).mpr hbad]

/-! ### The step that performs the next input -/

/-- With no reset next and no completion due, the step does the next input one cycle later (R48). -/
theorem step_eq_hostAct {s : State} {e : HostEvent} {rest : List HostEvent} (hscript : s.script = e :: rest)
    (he : e ≠ .reset) (hdue : completionDue s = false) : step s = hostAct e (tick { s with script := rest }) := by
  have hreset : resetNext s = false := by simp [resetNext, hscript, he]
  simp [step, hreset, hdue, hostCycle, hscript]

theorem step_read {s : State} {addr width : Nat} {rest : List HostEvent}
    (hscript : s.script = .read addr width :: rest) (hdue : completionDue s = false) :
    step s = busRead addr width (tick { s with script := rest }) :=
  step_eq_hostAct hscript nofun hdue

theorem step_write {s : State} {addr width : Nat} {v : Word32} {rest : List HostEvent}
    (hscript : s.script = .write addr width v :: rest) (hdue : completionDue s = false) :
    step s = busWrite addr width v (tick { s with script := rest }) :=
  step_eq_hostAct hscript nofun hdue

end Sys2Proof.Machine

namespace Sys2Proof.Proofs

open Sys2Proof.Machine

/-- Settles O7: the bus write of an aligned word is `memWrite`, whose effect is that of the offset's range in R43. -/
theorem windowWriteEffects : Obligations.WindowWriteEffects := by
  intro s off v hoff hal
  refine ⟨memWrite off v s, busWrite_word v s hoff hal, fun ha => ?_, fun hlo hhi => ?_, fun hoperand => ?_,
    memWrite_of_readOnly v s, ?_, ?_⟩
  · rw [memWrite_of_a v s ha]
  · rw [memWrite_of_b v s hlo hhi]
  · exact ⟨memRead_memWrite_same v s hoperand,
      fun off' _ hal' hne => memRead_memWrite_ne v s hoperand hal hal' hne⟩
  · rintro rfl hbusy
    exact memWrite_cmd_of_busy v hbusy
  · rintro rfl hidle
    rw [memWrite_cmd_of_idle v hidle]
    rfl

/-- Settles O8: each word of R40's map is a word of its register, and a read adds nothing but the host's answer. -/
theorem windowReadReturnsTheRegisterWord : Obligations.WindowReadReturnsTheRegisterWord := by
  intro s off hoff hal
  refine ⟨busRead_word s hoff hal, busRead_word _ hoff hal, fun j hj ha => ?_, fun j hj hlo hhi => ?_,
    fun j hj hlo hhi => ?_, fun j hj hlo hhi => ?_, ?_, ?_, memRead_of_reserved s, fun rest hscript hdue => ?_⟩
  · rw [memRead_of_a s ha, getLsbD_regWord_of_aligned s.a hal hj]
  · rw [memRead_of_b s hlo hhi, getLsbD_regWord_of_aligned s.b (by omega) hj]
  · rw [memRead_of_r s hlo hhi, getLsbD_regWord_of_aligned s.r (by omega) hj]
  · rw [memRead_of_x s hlo hhi, getLsbD_regWord_of_aligned s.x (by omega) hj]
  · rintro rfl
    exact memRead_cmd s
  · rintro rfl
    rfl
  · rw [step_read hscript hdue, busRead_word _ hoff hal, memRead_tick]
    exact ⟨_, rfl⟩

/-- Settles O9: the window takes no such access, so the read, the write and the step that meets one answer alike. -/
theorem badAccessIsABusError : Obligations.BadAccessIsABusError := by
  intro s off width v hoff hbad
  refine ⟨busRead_bad s hoff hbad, busWrite_bad v s hoff hbad,
    fun busy => ⟨accessFault_read_bad busy hoff hbad, accessFault_write_bad v busy hoff hbad⟩, ?_⟩
  rintro rest (hread | hwrite) hdue
  · rw [step_read hread hdue, busRead_bad _ hoff hbad]
    exact ⟨_, rfl⟩
  · rw [step_write hwrite hdue, busWrite_bad v _ hoff hbad]
    exact ⟨_, rfl⟩

end Sys2Proof.Proofs
end

section
/-! The fields of a command word and what decoding reads of them: bits 30:7 never, V and ND where R67 says so; and the
step that completes a command with an unassigned operation code (R67, R186). -/

namespace Sys2Proof

open Sys2Proof.Claims

/-! ### The fields of a command word -/

theorem wordOpc_eq_of_low_bits {w w' : Word32} (h : w.toNat % 128 = w'.toNat % 128) : wordOpc w = wordOpc w' := by
  apply BitVec.eq_of_toNat_eq
  rw [Machine.wordOpc_toNat, Machine.wordOpc_toNat]
  omega

theorem wordV_eq_of_low_bits {w w' : Word32} (h : w.toNat % 128 = w'.toNat % 128) : wordV w = wordV w' := by
  simp only [wordV, BitVec.getLsbD, Nat.testBit_eq_decide_div_mod_eq, decide_eq_decide]
  omega

@[simp] theorem wordOpc_xor (w m : Word32) : wordOpc (w ^^^ m) = wordOpc w ^^^ wordOpc m :=
  BitVec.extractLsb'_xor

@[simp] theorem wordV_xor (w m : Word32) : wordV (w ^^^ m) = (wordV w ^^ wordV m) :=
  BitVec.getLsbD_xor

@[simp] theorem wordNd_xor (w m : Word32) : wordNd (w ^^^ m) = (wordNd w ^^ wordNd m) :=
  BitVec.getLsbD_xor

/-! ### What the decoder reads of the fields -/

/-- The codes left to the last arm are R67's gaps. -/
theorem decodeFields_eq_error_iff (opc : BitVec 6) (v nd : Bool) :
    decodeFields opc v nd = .error (.unassignedOpcode opc) ↔ unassignedCodes opc.toNat := by
  have hopc := opc.isLt
  unfold decodeFields unassignedCodes
  split
  case h_37 =>
    simp only [imp_false, true_iff] at *
    omega
  all_goals simp [*]

/-- V stands in the arms of SETSIGN, SETBIT and PACK only. -/
theorem decodeFields_ignores_v {opc : BitVec 6} (h : opcUsesV opc = false) (v v' nd : Bool) :
    decodeFields opc v nd = decodeFields opc v' nd := by
  have hcodes : ¬ ((opc.toNat = 0x02 ∨ opc.toNat = 0x06) ∨ opc.toNat = 0x09) := by
    simpa [opcUsesV, ← BitVec.toNat_inj] using h
  unfold decodeFields
  split
  case h_3 | h_7 | h_10 => omega
  all_goals rfl

/-- ND stands in the arms of the status group only. -/
theorem decodeFields_ignores_nd {opc : BitVec 6} (h : opcStatusGroup opc = false) (v nd nd' : Bool) :
    decodeFields opc v nd = decodeFields opc v nd' := by
  have hcodes : ¬ ((0x28 ≤ opc.toNat ∧ opc.toNat ≤ 0x2C) ∨ (0x30 ≤ opc.toNat ∧ opc.toNat ≤ 0x33)) := by
    simpa [opcStatusGroup] using h
  unfold decodeFields
  split
  case h_28 | h_29 | h_30 | h_31 | h_32 | h_33 | h_34 | h_35 | h_36 => omega
  all_goals rfl

/-- A command word's bits 30:7 change no decoding (R67). -/
theorem decode_eq_of_read_bits {w w' : Word32} (hlow : w.toNat % 128 = w'.toNat % 128)
    (hnd : w.getLsbD 31 = w'.getLsbD 31) : decode w = decode w' := by
  rw [decode, decode, wordOpc_eq_of_low_bits hlow, wordV_eq_of_low_bits hlow, wordNd, wordNd, hnd]

theorem decode_xor_v {w : Word32} (h : opcUsesV (wordOpc w) = false) : decode (w ^^^ 0x40#32) = decode w := by
  have hopc : wordOpc (w ^^^ 0x40#32) = wordOpc w := by simp [show wordOpc 0x40#32 = 0#6 by decide]
  have hnd : wordNd (w ^^^ 0x40#32) = wordNd w := by simp [show wordNd 0x40#32 = false by decide]
  rw [decode, decode, hopc, hnd, decodeFields_ignores_v h]

theorem decode_xor_nd {w : Word32} (h : opcStatusGroup (wordOpc w) = false) :
    decode (w ^^^ 0x80000000#32) = decode w := by
  have hopc : wordOpc (w ^^^ 0x80000000#32) = wordOpc w := by simp [show wordOpc 0x80000000#32 = 0#6 by decide]
  have hv : wordV (w ^^^ 0x80000000#32) = wordV w := by simp [show wordV 0x80000000#32 = false by decide]
  rw [decode, decode, hopc, hv, decodeFields_ignores_nd h]

end Sys2Proof

namespace Sys2Proof.Machine

open Sys2Proof.Claims

/-! ### The CMD word and the completion of an unassigned code -/

/-- R23: bits 30:7 of the CMD word are 0. -/
theorem cmdWord_reserved (c : CmdReg) : (cmdWord c).extractLsb' 7 24 = 0#24 := by
  apply BitVec.eq_of_getLsbD_eq
  intro i hi
  rw [BitVec.getLsbD_extractLsb', getLsbD_cmdWord]
  simp [hi, show ¬ 7 + i < 6 by omega, show 7 + i ≠ 6 by omega, show 7 + i ≠ 31 by omega]

/-- R67, R186: no command is decoded, so the completion is BAD_INPUT's, which keeps R and X (R184). -/
theorem complete_of_unassigned {s : State} (h : unassignedCodes s.latch.opc.toNat) :
    complete s = .next (raiseBadInput s) := by
  have herror := (decodeFields_eq_error_iff s.latch.opc s.latch.v s.latch.nd).mpr h
  obtain ⟨i, hok, _⟩ | ⟨_, hbad⟩ := complete_cases s
  · exact absurd (hok.symm.trans herror) nofun
  · exact hbad

theorem step_eq_complete {s : State} (hdue : completionDue s = true) (hreset : resetNext s = false) :
    step s = complete s := by
  simp [step, hdue, hreset]

end Sys2Proof.Machine

namespace Sys2Proof.Proofs

open Sys2Proof.Machine

/-- Settles O3: decoding is a table on OPC whose gaps are R67's and whose arms read V and ND in their groups only. -/
theorem unassignedAndIgnoredBits : Obligations.UnassignedAndIgnoredBits := by
  refine ⟨fun w => ?_, fun w s hidle => ?_, fun s hopc hdue hreset => ?_, fun _ _ => decode_eq_of_read_bits,
    fun w s => cmdWord_reserved (accept w s).cmd, fun w hsetsign hsetbit hpack => ?_, fun _ => decode_xor_nd⟩
  · rw [← wordOpc_toNat]
    exact decodeFields_eq_error_iff (wordOpc w) (wordV w) (wordNd w)
  · rw [memWrite_cmd_of_idle w hidle]
    exact ⟨accept_busy w s, rfl⟩
  · rw [step_eq_complete hdue hreset, complete_of_unassigned hopc]
    rfl
  · exact decode_xor_v (by simp [opcUsesV, hsetsign, hsetbit, hpack])

end Sys2Proof.Proofs
end

section
/-! Where the fields of a packed word stand: as digits of the word's number, and under the masks on its word 3 (R60). -/

namespace Sys2Proof.Machine

theorem toNat_regWord (q : Value) (k : Nat) : (regWord q k).toNat = q.toNat / 2 ^ (32 * k) % 2 ^ 32 := by
  rw [regWord, BitVec.extractLsb'_toNat, Nat.shiftRight_eq_div_pow]

/-- R60: a word is its sign, scale and mantissa with the reserved bits between them. -/
theorem toNat_eq_sum_of_fields (w : Value) :
    w.toNat = (sgn w).toNat * 2 ^ 127 + (w.extractLsb' 120 7).toNat * 2 ^ 120 + scl w * 2 ^ 112 +
      (w.extractLsb' 96 16).toNat * 2 ^ 96 + mant w := by
  have hw := w.isLt
  rw [sgn_toNat, scl_eq_div_mod, mant_eq_mod, BitVec.extractLsb'_toNat, BitVec.extractLsb'_toNat,
    Nat.shiftRight_eq_div_pow, Nat.shiftRight_eq_div_pow]
  omega

/-- R60: the mantissa is words 0 to 2, least significant first. -/
theorem mant_eq_sum_of_words (w : Value) :
    mant w = (regWord w 0).toNat + 2 ^ 32 * (regWord w 1).toNat + 2 ^ 64 * (regWord w 2).toNat := by
  rw [mant_eq_mod, toNat_regWord, toNat_regWord, toNat_regWord]
  omega

/-- R60: the mask 0x80000000 is bit 31 of word 3, which is the sign. -/
theorem sgn_iff_signMask (w : Value) : sgn w = true ↔ regWord w 3 &&& 0x80000000#32 ≠ 0#32 := by
  have hbit : (regWord w 3).getLsbD 31 = sgn w := getLsbD_regWord w 3 (by decide)
  rw [show 0x80000000#32 = BitVec.twoPow 32 31 by decide, BitVec.and_twoPow, hbit]
  cases sgn w <;> decide

/-- R60: the mask 0x00FF0000 keeps bits 23:16 of word 3, which are the scale. -/
theorem scl_eq_scaleMask (w : Value) : scl w = ((regWord w 3 &&& 0x00FF0000#32) >>> 16).toNat := by
  rw [BitVec.ushiftRight_and_distrib, BitVec.toNat_and, show (0x00FF0000#32 >>> 16).toNat = 2 ^ 8 - 1 by decide,
    Nat.and_two_pow_sub_one_eq_mod, BitVec.toNat_ushiftRight, Nat.shiftRight_eq_div_pow, toNat_regWord, scl_eq_div_mod]
  omega

end Sys2Proof.Machine

namespace Sys2Proof.Proofs

open Sys2Proof.Machine

/-- Settles O5: the fields are the digits of the word's number in R60's mixed base, the words those in base 2^32. -/
theorem packedWordLayout : Obligations.PackedWordLayout := fun w =>
  ⟨toNat_eq_sum_of_fields w, mant_eq_sum_of_words w, sgn_iff_signMask w, scl_eq_scaleMask w⟩

end Sys2Proof.Proofs
end

section
/-! The bit-field commands that write a word (R83, R85 to R90): what an operation code decodes to, and what each field
update leaves in each bit of the word. -/

namespace Sys2Proof.Machine

open Sys2Proof.Claims

/-! ### The operation code of a command -/

/-- `OpcodeIs` is a fact about the decoder's table alone (R66): bits 5:0 are the row, V and ND stay variables. -/
theorem opcodeIs_of_decodeFields {opc : Nat} {f : Bool → Bool → Instr}
    (h : ∀ v nd, decodeFields (BitVec.ofNat 6 opc) v nd = .ok (f v nd)) : OpcodeIs opc f := by
  intro w hw
  have hopc : wordOpc w = BitVec.ofNat 6 opc := by
    apply BitVec.eq_of_toNat_eq
    rw [wordOpc_toNat, BitVec.toNat_ofNat]
    omega
  rw [decode, hopc, h, wordV, wordNd]

/-! ### The field updates, bit by bit (R61) -/

theorem getLsbD_withSign (w : Value) (v : Bool) {i : Nat} (hi : i < 128) :
    (withSign w v).getLsbD i = if i = 127 then v else w.getLsbD i := by
  simp only [withSign, BitVec.getLsbD_append, BitVec.getLsbD_extractLsb', BitVec.getLsbD_ofBool]
  by_cases hsign : i = 127
  · simp [hsign]
  · simp [hsign, show i < 127 by omega]

/-- Outside bits 119:112 the word with its scale replaced is the word. -/
theorem getLsbD_withScale_of_outside (w : Value) (e : Nat) {i : Nat} (h : i < 112 ∨ 120 ≤ i) :
    (withScale w e).getLsbD i = w.getLsbD i := by
  simp only [withScale, BitVec.getLsbD_append, BitVec.getLsbD_extractLsb']
  obtain hbelow | habove := h
  · simp [hbelow, show i < 8 + 112 by omega]
  obtain htop | hout := Nat.lt_or_ge i 128
  · simp [show ¬ i < 8 + 112 by omega, show i - 120 < 8 by omega, show 120 + (i - 120) = i by omega]
  · simp [show ¬ i < 8 + 112 by omega, show ¬ i - 120 < 8 by omega, BitVec.getLsbD_of_ge w i hout]

theorem getLsbD_withMant (w : Value) (m i : Nat) :
    (withMant w m).getLsbD i = if i < 96 then m.testBit i else w.getLsbD i := by
  simp only [withMant, BitVec.getLsbD_append, BitVec.getLsbD_extractLsb', BitVec.getLsbD_ofNat]
  obtain hmant | hword3 := Nat.lt_or_ge i 96
  · simp [hmant]
  obtain htop | hout := Nat.lt_or_ge i 128
  · simp [show ¬ i < 96 by omega, show i - 96 < 32 by omega, show 96 + (i - 96) = i by omega]
  · simp [show ¬ i < 96 by omega, show ¬ i - 96 < 32 by omega, BitVec.getLsbD_of_ge w i hout]

theorem testBit_mant (w : Value) (i : Nat) : (mant w).testBit i = (decide (i < 96) && w.getLsbD i) := by
  rw [mant_eq_mod, Nat.testBit_mod_two_pow, BitVec.getLsbD]

theorem getLsbD_replaceBit (w : Value) (n : Nat) (v : Bool) {i : Nat} (hi : i < 128) :
    (replaceBit w n v).getLsbD i = if i = n then v else w.getLsbD i := by
  have hmask : (1#128 <<< n).getLsbD i = decide (i = n) := by
    rw [← BitVec.twoPow_eq, BitVec.getLsbD_twoPow]
    simp [eq_comm]
    omega
  cases v
  · rw [replaceBit, if_neg nofun, BitVec.getLsbD_and, BitVec.getLsbD_not, hmask]
    simp [hi, Bool.and_comm]
  · rw [replaceBit, if_pos rfl, BitVec.getLsbD_or, hmask]
    simp [Bool.or_comm]

/-! ### The integer argument -/

/-- R80: the clamp as a minimum and a maximum. -/
theorem clamp28_eq_max_min (n : Int) : (clamp28 n : Int) = max 0 (min n 28) := by
  unfold clamp28
  split_ifs <;> omega

theorem inMantissa_iff (n : Int) : inMantissa n = true ↔ 0 ≤ n ∧ n ≤ 95 := by
  simp [inMantissa]

theorem inMantissa_natCast {n : Nat} (h : n ≤ 95) : inMantissa n = true := by
  rw [inMantissa_iff]
  omega

theorem inMantissa_of_outside {n : Int} (h : n < 0 ∨ 95 < n) : inMantissa n = false := by
  rw [Bool.eq_false_iff, ne_eq, inMantissa_iff]
  omega

/-! ### What the commands that take a position, and the shifts, answer (R86 to R89) -/

theorem getbit_answersOk (s : State) : AnswersOk .getbit s 0 (flagBit (mantissaBit s.latch.a (intArg s))) := rfl

theorem setbit_answersOk (v : Bool) (s : State) :
    AnswersOk (.setbit v) s (setMantissaBit s.latch.a (intArg s) v) 0 := rfl

theorem mantissaBit_natCast (w : Value) {n : Nat} (h : n ≤ 95) : mantissaBit w n = w.getLsbD n := by
  simp [mantissaBit, inMantissa_natCast h]

theorem setMantissaBit_natCast (w : Value) {n : Nat} (v : Bool) (h : n ≤ 95) :
    setMantissaBit w n v = replaceBit w n v := by
  simp [setMantissaBit, inMantissa_natCast h]

theorem mantissaBit_of_outside (w : Value) {n : Int} (h : n < 0 ∨ 95 < n) : mantissaBit w n = false := by
  simp [mantissaBit, inMantissa_of_outside h]

theorem setMantissaBit_of_outside (w : Value) {n : Int} (v : Bool) (h : n < 0 ∨ 95 < n) :
    setMantissaBit w n v = w := by
  simp [setMantissaBit, inMantissa_of_outside h]

/-- R88's mantissa bit by bit: bit 95 falls out of the field, and bit 0 is new. -/
theorem testBit_mant_mul_two (w : Value) {i : Nat} (hi : i < 96) :
    (mant w * 2 % 2 ^ 96).testBit i = (decide (1 ≤ i) && w.getLsbD (i - 1)) := by
  rw [Nat.testBit_mod_two_pow, ← pow_one 2, Nat.testBit_mul_two_pow, testBit_mant]
  simp [hi, show i - 1 < 96 by omega]

/-- R89's mantissa bit by bit. -/
theorem testBit_mant_div_two (w : Value) (i : Nat) :
    (mant w / 2).testBit i = (decide (i < 95) && w.getLsbD (i + 1)) := by
  rw [Nat.testBit_div_two, testBit_mant]
  simp [show i + 1 < 96 ↔ i < 95 by omega]

end Sys2Proof.Machine

namespace Sys2Proof.Proofs

open Sys2Proof.Machine Sys2Proof.Claims

/-- Settles O23: `withSign` replaces bit 127 alone. -/
theorem setsignWritesTheSignBitOnly : Obligations.SetsignWritesTheSignBitOnly := by
  refine ⟨opcodeIs_of_decodeFields fun _ _ => rfl,
    fun v s => ⟨withSign s.latch.a v, rfl, sgn_withSign _ v, fun i hi => ?_⟩⟩
  rw [getLsbD_withSign _ v (by omega), if_neg (by omega)]

/-- Settles O25: the clamped argument fits the scale field, and `withScale` leaves the bits beside it. -/
theorem setscaleClampsTheIntegerArgument : Obligations.SetscaleClampsTheIntegerArgument := by
  refine ⟨opcodeIs_of_decodeFields fun _ _ => rfl,
    fun s => ⟨withScale s.latch.a (clamp28 (intArg s)), rfl, ?_, fun i hi => ?_⟩⟩
  · have hclamp := clamp28_le (intArg s)
    rw [scl_withScale, Nat.mod_eq_of_lt (by omega), clamp28_eq_max_min]
  · exact getLsbD_withScale_of_outside _ _ (hi.imp_right And.left)

/-- Settles O26: a position in 0..95 is a bit of the word, any other is no bit of the mantissa. -/
theorem mantissaBitReadAndWrite : Obligations.MantissaBitReadAndWrite := by
  refine ⟨opcodeIs_of_decodeFields fun _ _ => rfl, opcodeIs_of_decodeFields fun _ _ => rfl,
    fun s n harg hn => ⟨⟨_, getbit_answersOk s, ?_⟩, fun v => ⟨_, setbit_answersOk v s, fun i hi => ?_⟩⟩,
    fun s hout => ⟨?_, fun v => ?_⟩⟩
  · rw [toNat_flagBit, harg, mantissaBit_natCast _ hn]
  · rw [harg, setMantissaBit_natCast _ v hn, getLsbD_replaceBit _ n v hi]
  · have hget := getbit_answersOk s
    rwa [mantissaBit_of_outside _ hout] at hget
  · have hset := setbit_answersOk v s
    rwa [setMantissaBit_of_outside _ v hout] at hset

/-- Settles O27: both shifts are `withMant`, so word 3 is A's, and below it the mantissa's bits have moved one place. -/
theorem mantissaShifts : Obligations.MantissaShifts := by
  refine ⟨opcodeIs_of_decodeFields fun _ _ => rfl, opcodeIs_of_decodeFields fun _ _ => rfl, fun s =>
    ⟨⟨_, _, rfl, toNat_flagBit _, ?_, fun i hi => ?_, fun i hi _ => ?_⟩,
      ⟨_, _, rfl, toNat_flagBit _, ?_, fun i hi => ?_, fun i hi _ => ?_⟩⟩⟩
  · rw [getLsbD_withMant, if_pos (by omega), testBit_mant_mul_two _ (by omega)]
    rfl
  · rw [getLsbD_withMant, if_pos (by omega), testBit_mant_mul_two _ (by omega)]
    simp
  · rw [getLsbD_withMant, if_neg (by omega)]
  · rw [getLsbD_withMant, if_pos (by omega), testBit_mant_div_two]
    rfl
  · rw [getLsbD_withMant, if_pos (by omega), testBit_mant_div_two]
    simp [hi]
  · rw [getLsbD_withMant, if_neg (by omega)]

/-- Settles O28: the clamped argument and the mantissa fit their fields, so the word's number is `pack`'s sum. -/
theorem packBuildsTheWord : Obligations.PackBuildsTheWord := by
  refine ⟨opcodeIs_of_decodeFields fun _ _ => rfl,
    fun v s => ⟨pack v (clamp28 (intArg s)) (mant s.latch.a), rfl, ?_⟩⟩
  have hclamp := clamp28_le (intArg s)
  rw [toNat_pack v (by omega) (mant_lt _), mant_eq_mod, ← clamp28_eq_max_min]
  push_cast
  rfl

end Sys2Proof.Proofs
end

section
/-! Naturals in base 2^32: the value and the bounds of a list of words, and the word-by-word adder (R101) and the
partial-product multiplier (R103) for operands of any number of words. -/

namespace Sys2Proof.Machine

/-! ### Lists of 32-bit words as digits (R21) -/

theorem ofWords_eq_ofDigits (ws : List Nat) : ofWords ws = Nat.ofDigits (2 ^ 32) ws := by
  induction ws with
  | nil => rfl
  | cons w ws ih => rw [ofWords, ih, Nat.ofDigits_cons]

theorem ofWords_lt {ws : List Nat} (h : ∀ w ∈ ws, w < 2 ^ 32) : ofWords ws < (2 ^ 32) ^ ws.length := by
  rw [ofWords_eq_ofDigits]
  exact Nat.ofDigits_lt_base_pow_length (by decide) h

theorem ofWords_append (ws vs : List Nat) : ofWords (ws ++ vs) = ofWords ws + (2 ^ 32) ^ ws.length * ofWords vs := by
  simp only [ofWords_eq_ofDigits, Nat.ofDigits_append]

theorem ofWords_eq_zero_iff (ws : List Nat) : ofWords ws = 0 ↔ ∀ w ∈ ws, w = 0 := by
  induction ws with
  | nil => simp [ofWords]
  | cons w ws ih => simp [ofWords, ih]

/-- The words from index `k` on are all zero exactly if the number fits in `k` words. -/
theorem ofWords_lt_iff_drop_eq_zero {ws : List Nat} {k : Nat} (hws : ∀ w ∈ ws, w < 2 ^ 32) (hk : k ≤ ws.length) :
    ofWords ws < (2 ^ 32) ^ k ↔ ∀ w ∈ ws.drop k, w = 0 := by
  have hlow : ofWords (ws.take k) < (2 ^ 32) ^ k := by
    have hlt := ofWords_lt fun w hw => hws w (List.mem_of_mem_take (i := k) hw)
    rwa [List.length_take_of_le hk] at hlt
  have hsplit : ofWords ws = ofWords (ws.take k) + (2 ^ 32) ^ k * ofWords (ws.drop k) := by
    conv_lhs => rw [← List.take_append_drop k ws, ofWords_append, List.length_take_of_le hk]
  rw [← ofWords_eq_zero_iff, hsplit]
  refine ⟨fun hlt => Nat.eq_zero_of_not_pos fun hpos => ?_, fun hzero => by simpa [hzero] using hlow⟩
  have hge := Nat.le_mul_of_pos_right ((2 ^ 32) ^ k) hpos
  omega

@[simp] theorem length_toWords (k m : Nat) : (toWords k m).length = k := by
  induction k generalizing m with
  | zero => rfl
  | succ k ih => rw [toWords, List.length_cons, ih]

theorem toWords_lt (k m : Nat) : ∀ w ∈ toWords k m, w < 2 ^ 32 := by
  induction k generalizing m with
  | zero => simp [toWords]
  | succ k ih =>
    rw [toWords, List.forall_mem_cons]
    exact ⟨Nat.mod_lt _ (by decide), ih _⟩

theorem ofWords_toWords {k m : Nat} (h : m < (2 ^ 32) ^ k) : ofWords (toWords k m) = m := by
  induction k generalizing m with
  | zero =>
    rw [pow_zero, Nat.lt_one_iff] at h
    exact h.symm
  | succ k ih =>
    rw [toWords, ofWords, ih (Nat.div_lt_of_lt_mul (by rwa [pow_succ'] at h)), Nat.mod_add_div]

/-! ### The adder (R101) -/

theorem addWords_fst_lt (xs ys : List Nat) (c : Nat) : ∀ w ∈ (addWords xs ys c).1, w < 2 ^ 32 := by
  induction xs, ys, c using addWords.induct with
  | case1 x xs y ys c t ih =>
    rw [addWords, List.forall_mem_cons]
    exact ⟨Nat.mod_lt _ (by decide), ih⟩
  | case2 xs ys c hnil => simp [addWords]

theorem length_addWords_fst {xs ys : List Nat} (h : xs.length = ys.length) (c : Nat) :
    (addWords xs ys c).1.length = xs.length := by
  induction xs generalizing ys c with
  | nil => rfl
  | cons x xs ih =>
    obtain _ | ⟨y, ys⟩ := ys
    · cases h
    · rw [addWords, List.length_cons, ih (Nat.succ.inj h), List.length_cons]

/-- The sum words and the carry out are the sum: each word position keeps `t % 2^32` and passes `t / 2^32` on. -/
theorem ofWords_addWords {xs ys : List Nat} (h : xs.length = ys.length) (c : Nat) :
    ofWords (addWords xs ys c).1 + (2 ^ 32) ^ xs.length * (addWords xs ys c).2 = ofWords xs + ofWords ys + c := by
  induction xs generalizing ys c with
  | nil =>
    obtain rfl := List.eq_nil_of_length_eq_zero h.symm
    simp [addWords, ofWords]
  | cons x xs ih =>
    obtain _ | ⟨y, ys⟩ := ys
    · cases h
    · have hrest := ih (Nat.succ.inj h) ((x + y + c) / 2 ^ 32)
      have hword := Nat.mod_add_div (x + y + c) (2 ^ 32)
      simp only [addWords, ofWords, List.length_cons, pow_succ' (2 ^ 32)]
      linarith

/-! ### The multiplier (R103) -/

theorem length_mulRow (ai : Nat) {bs buf : List Nat} (h : bs.length = buf.length) (c : Nat) :
    (mulRow ai bs buf c).length = bs.length + 1 := by
  induction bs generalizing buf c with
  | nil => rfl
  | cons b bs ih =>
    obtain _ | ⟨x, buf⟩ := buf
    · cases h
    · rw [mulRow, List.length_cons, ih (Nat.succ.inj h), List.length_cons]

/-- One row adds `ai` times the multiplicand, and the carry in, to the buffer. -/
theorem ofWords_mulRow (ai : Nat) {bs buf : List Nat} (h : bs.length = buf.length) (c : Nat) :
    ofWords (mulRow ai bs buf c) = ofWords buf + ai * ofWords bs + c := by
  induction bs generalizing buf c with
  | nil =>
    obtain rfl := List.eq_nil_of_length_eq_zero h.symm
    simp [mulRow, ofWords]
  | cons b bs ih =>
    obtain _ | ⟨x, buf⟩ := buf
    · cases h
    · have hword := Nat.mod_add_div (x + ai * b + c) (2 ^ 32)
      simp only [mulRow, ofWords, ih (Nat.succ.inj h)]
      linarith

/-- R103: `buf[i+j] + a[i] * b[j] + carry` is at most 2^64 - 1, so the carry fits in one word. -/
theorem mulCarry_lt {x a b c : Nat} (hx : x < 2 ^ 32) (ha : a < 2 ^ 32) (hb : b < 2 ^ 32) (hc : c < 2 ^ 32) :
    (x + a * b + c) / 2 ^ 32 < 2 ^ 32 := by
  have hprod : a * b ≤ (2 ^ 32 - 1) * (2 ^ 32 - 1) := Nat.mul_le_mul (by omega) (by omega)
  omega

theorem mulRow_lt {ai : Nat} {bs buf : List Nat} {c : Nat} (hai : ai < 2 ^ 32) (hbs : ∀ b ∈ bs, b < 2 ^ 32)
    (hbuf : ∀ x ∈ buf, x < 2 ^ 32) (hc : c < 2 ^ 32) : ∀ w ∈ mulRow ai bs buf c, w < 2 ^ 32 := by
  induction bs, buf, c using mulRow.induct ai with
  | case1 b bs x buf c t ih =>
    obtain ⟨hb, hbs⟩ := List.forall_mem_cons.mp hbs
    obtain ⟨hx, hbuf⟩ := List.forall_mem_cons.mp hbuf
    rw [mulRow, List.forall_mem_cons]
    exact ⟨Nat.mod_lt _ (by decide), ih hbs hbuf (mulCarry_lt hx hai hb hc)⟩
  | case2 bs buf c hnil => simpa [mulRow] using hc

/-- A row splits into its final word and as many words as went in, which the next row adds to. -/
theorem exists_mulRow_eq_cons (ai : Nat) {bs buf : List Nat} (h : bs.length = buf.length) :
    ∃ w rest, mulRow ai bs buf 0 = w :: rest ∧ bs.length = rest.length := by
  obtain ⟨w, rest, hrow⟩ := List.exists_cons_of_length_eq_add_one (length_mulRow ai h 0)
  have hlen := length_mulRow ai h 0
  rw [hrow, List.length_cons] at hlen
  exact ⟨w, rest, hrow, by omega⟩

theorem length_mulRows {bs buf : List Nat} (as : List Nat) (h : bs.length = buf.length) :
    (mulRows bs as buf).length = as.length + bs.length := by
  induction as generalizing buf with
  | nil => simp [mulRows, h]
  | cons a as ih =>
    obtain ⟨w, rest, hrow, hlen⟩ := exists_mulRow_eq_cons a h
    simp only [mulRows, hrow, List.length_cons, ih hlen]
    omega

/-- Schoolbook multiplication: the rows add the product to the buffer. -/
theorem ofWords_mulRows {bs buf : List Nat} (as : List Nat) (h : bs.length = buf.length) :
    ofWords (mulRows bs as buf) = ofWords buf + ofWords as * ofWords bs := by
  induction as generalizing buf with
  | nil => simp [mulRows, ofWords]
  | cons a as ih =>
    obtain ⟨w, rest, hrow, hlen⟩ := exists_mulRow_eq_cons a h
    have hvalue := ofWords_mulRow a h 0
    rw [hrow, ofWords] at hvalue
    simp only [mulRows, hrow, ofWords, ih hlen]
    linarith

theorem mulRows_lt {bs as buf : List Nat} (h : bs.length = buf.length) (hbs : ∀ b ∈ bs, b < 2 ^ 32)
    (has : ∀ a ∈ as, a < 2 ^ 32) (hbuf : ∀ x ∈ buf, x < 2 ^ 32) : ∀ w ∈ mulRows bs as buf, w < 2 ^ 32 := by
  induction as generalizing buf with
  | nil => exact hbuf
  | cons a as ih =>
    obtain ⟨ha, has⟩ := List.forall_mem_cons.mp has
    obtain ⟨w, rest, hrow, hlen⟩ := exists_mulRow_eq_cons a h
    have hrowlt := mulRow_lt ha hbs hbuf (by decide : 0 < 2 ^ 32)
    rw [hrow, List.forall_mem_cons] at hrowlt
    obtain ⟨hw, hrest⟩ := hrowlt
    simp only [mulRows, hrow, List.forall_mem_cons]
    exact ⟨hw, ih hlen has hrest⟩

/-! ### Three words: the sub-blocks of the block -/

theorem ofWords_mmulWords {m n : Nat} (hm : m < 2 ^ 96) (hn : n < 2 ^ 96) : ofWords (mmulWords m n) = m * n := by
  rw [mmulWords, ofWords_mulRows _ (by simp), ofWords_toWords (k := 3) hm, ofWords_toWords (k := 3) hn]
  simp [ofWords]

theorem length_mmulWords (m n : Nat) : (mmulWords m n).length = 6 := by
  rw [mmulWords, length_mulRows _ (by simp), length_toWords, length_toWords]

theorem mmulWords_lt (m n : Nat) : ∀ w ∈ mmulWords m n, w < 2 ^ 32 :=
  mulRows_lt (by simp) (toWords_lt 3 n) (toWords_lt 3 m) (by decide)

/-- The three sum words are below 2^96 and with the carry make the sum, so they are its remainder and its quotient. -/
theorem maddWords_eq_mod_div {m n : Nat} (hm : m < 2 ^ 96) (hn : n < 2 ^ 96) :
    maddWords m n = ((m + n) % 2 ^ 96, (m + n) / 2 ^ 96) := by
  have hlen : (toWords 3 m).length = (toWords 3 n).length := by simp
  have hsum := ofWords_addWords hlen 0
  have hlow := ofWords_lt (addWords_fst_lt (toWords 3 m) (toWords 3 n) 0)
  rw [ofWords_toWords (k := 3) hm, ofWords_toWords (k := 3) hn, length_toWords] at hsum
  rw [length_addWords_fst hlen, length_toWords] at hlow
  simp only [maddWords, Prod.mk.injEq]
  omega

end Sys2Proof.Machine

namespace Sys2Proof.Proofs

open Sys2Proof.Machine

/-- Settles O57: the carry is the quotient of the sum by 2^96, which is 0 or 1 since both mantissas are below 2^96. -/
theorem wordAdderIsTheAdder : Obligations.WordAdderIsTheAdder := by
  intro m n hm hn
  refine ⟨?_, rfl, decide_eq_true_iff⟩
  have hcarry : (m + n) / 2 ^ 96 = if 2 ^ 96 ≤ m + n then 1 else 0 := by split_ifs <;> omega
  rw [maddWords_eq_mod_div hm hn, hcarry]

/-- Settles O58: the rows add up to the product, whose words beyond index 2 are its part beyond 2^96. -/
theorem partialProductsGiveTheProduct : Obligations.PartialProductsGiveTheProduct := by
  intro m n hm hn
  refine ⟨length_mmulWords m n, mmulWords_lt m n, ofWords_mmulWords hm hn, rfl, ?_⟩
  rw [← ofWords_mmulWords hm hn]
  exact ofWords_lt_iff_drop_eq_zero (k := 3) (mmulWords_lt m n) (by simp [length_mmulWords])

end Sys2Proof.Proofs
end

section
/-! The magnitude primitives (R107 to R113): what each command answers, as the number in R and in X. -/

namespace Sys2Proof.Machine

open Sys2Proof.Claims

theorem compareCode_mcmp (m n : Nat) :
    compareCode (mcmp m n) = if m < n then 0xFFFFFFFF#128 else if m = n then 0 else 1 := by
  unfold mcmp
  split_ifs <;> rfl

/-- R101: sum and carry make up the exact sum. -/
theorem madd_fst_add_carry {m n : Nat} (hm : m < 2 ^ 96) (hn : n < 2 ^ 96) :
    (madd m n).1 + 2 ^ 96 * (madd m n).2.toNat = m + n := by
  simp only [madd]
  obtain hfits | hcarry := Nat.lt_or_ge (m + n) (2 ^ 96)
  · rw [decide_eq_false (by omega), Bool.toNat_false]
    omega
  · rw [decide_eq_true hcarry, Bool.toNat_true]
    omega

/-- R102: the difference is the exact one, with 2^96 borrowed where the subtrahend is greater. -/
theorem add_msub_fst {m n : Nat} (hm : m < 2 ^ 96) (hn : n < 2 ^ 96) :
    n + (msub m n).1 = m + 2 ^ 96 * (msub m n).2.toNat := by
  simp only [msub]
  obtain hborrow | hge := Nat.lt_or_ge m n
  · rw [decide_eq_true hborrow, Bool.toNat_true]
    omega
  · rw [decide_eq_false (by omega), Bool.toNat_false]
    omega

theorem toNat_zext_of_mantissa {n : Nat} (h : n < 2 ^ 96) : (zext n).toNat = n :=
  toNat_zext (by omega)

theorem mdiv_answersOk {s : State} (h : mant s.latch.b ≠ 0) :
    AnswersOk .mdiv s (zext (mant s.latch.a / mant s.latch.b)) (zext (mant s.latch.a % mant s.latch.b)) :=
  if_neg h

theorem mdiv_answersUnspec {s : State} (h : mant s.latch.b = 0) :
    AnswersUnspecR .mdiv s .divByZero (unspecDraw (drawn s)) :=
  ⟨_, _, if_pos h⟩

theorem mul10_answersOk (s : State) :
    AnswersOk .mul10 s (zext (mul10 (mant s.latch.a)).1) (flagBit (mul10 (mant s.latch.a)).2) := rfl

end Sys2Proof.Machine

namespace Sys2Proof.Proofs

open Sys2Proof.Machine

/-- Settles O29: R and X are the two answers of the sub-blocks on the mantissas, which fit their registers. -/
theorem magnitudeCompareAddSubtract : Obligations.MagnitudeCompareAddSubtract := by
  refine ⟨opcodeIs_of_decodeFields fun _ _ => rfl, opcodeIs_of_decodeFields fun _ _ => rfl,
    opcodeIs_of_decodeFields fun _ _ => rfl, fun s => ?_⟩
  have ha := mant_lt s.latch.a
  have hb := mant_lt s.latch.b
  have hsum : (madd (mant s.latch.a) (mant s.latch.b)).1 < 2 ^ 96 := Nat.mod_lt _ (by decide)
  have hdiff : (msub (mant s.latch.a) (mant s.latch.b)).1 < 2 ^ 96 := Nat.mod_lt _ (by decide)
  refine ⟨?_, ⟨_, _, rfl, ?_⟩, ⟨_, _, rfl, ?_⟩⟩
  · rw [← compareCode_mcmp]
    rfl
  · rw [toNat_zext_of_mantissa hsum, toNat_flagBit]
    exact ⟨hsum, Bool.toNat_le _, madd_fst_add_carry ha hb⟩
  · rw [toNat_zext_of_mantissa hdiff, toNat_flagBit]
    exact ⟨hdiff, Bool.toNat_le _, add_msub_fst ha hb⟩

/-- Settles O30: the product of two mantissas is below 2^192, so its quotient by 2^96 fits in X. -/
theorem mmulGivesTheFullProduct : Obligations.MmulGivesTheFullProduct := by
  refine ⟨opcodeIs_of_decodeFields fun _ _ => rfl, fun s => ⟨_, _, rfl, ?_⟩⟩
  have hlow : mmul (mant s.latch.a) (mant s.latch.b) % 2 ^ 96 < 2 ^ 96 := Nat.mod_lt _ (by decide)
  have hhigh : mmul (mant s.latch.a) (mant s.latch.b) / 2 ^ 96 < 2 ^ 96 :=
    Nat.div_lt_of_lt_mul (Nat.mul_lt_mul'' (mant_lt _) (mant_lt _))
  rw [toNat_zext_of_mantissa hlow, toNat_zext_of_mantissa hhigh]
  exact ⟨hlow, hhigh, Nat.mod_add_div _ _⟩

/-- Settles O31: the zero test on the divisor decides between the natural division and two UNSPEC draws. -/
theorem mdivQuotientAndRemainder : Obligations.MdivQuotientAndRemainder := by
  refine ⟨opcodeIs_of_decodeFields fun _ _ => rfl, fun s hb => ⟨_, _, mdiv_answersOk hb, ?_⟩,
    fun s hb => ⟨_, mdiv_answersUnspec hb⟩⟩
  have hrem := Nat.mod_lt (mant s.latch.a) (Nat.pos_of_ne_zero hb)
  rw [toNat_zext_of_mantissa (hrem.trans (mant_lt _)),
    toNat_zext_of_mantissa ((Nat.div_le_self _ _).trans_lt (mant_lt _))]
  exact ⟨hrem, (Nat.div_add_mod _ _).symm⟩

/-- Settles O32: `mul10` keeps the mantissa exactly where ten times it does not fit, and `div10` is division by ten. -/
theorem mul10AndDiv10 : Obligations.Mul10AndDiv10 := by
  refine ⟨opcodeIs_of_decodeFields fun _ _ => rfl, opcodeIs_of_decodeFields fun _ _ => rfl,
    fun s => ⟨?_, _, _, rfl, ?_⟩⟩
  · have hmul := mul10_answersOk s
    split_ifs with hfits
    · rw [mul10_of_le (by omega)] at hmul
      exact ⟨_, hmul, toNat_zext_of_mantissa (by omega)⟩
    · rw [mul10_of_overflow (by omega)] at hmul
      exact ⟨_, hmul, toNat_zext_of_mantissa (mant_lt _)⟩
  · have hlt := mant_lt s.latch.a
    simp only [div10]
    rw [toNat_zext_of_mantissa (by omega), toNat_zext_of_mantissa (by omega)]
    omega

end Sys2Proof.Proofs
end

section
/-! The normaliser (R120, R121, R133): what one working copy is after any number of scale steps, and `normalize` as the
two working copies, each raised to the other operand's scale. -/

namespace Sys2Proof.Machine

open Sys2Proof.Claims

/-! ### Scale steps -/

/-- `v` is `w` after `j` scale steps of R120: the scale `j` greater, the mantissa times ten `j` times without loss, and
every bit outside the two fields as before. -/
structure RaisedBy (w v : Value) (j : Nat) : Prop where
  scl_eq : scl v = scl w + j
  mant_eq : mant v = mant w * 10 ^ j
  getLsbD_eq : ∀ i, 96 ≤ i → i < 112 ∨ 120 ≤ i → v.getLsbD i = w.getLsbD i

namespace RaisedBy

theorem refl (w : Value) : RaisedBy w w 0 :=
  ⟨rfl, (mul_one _).symm, fun _ _ _ => rfl⟩

theorem trans {u v w : Value} {j k : Nat} (huv : RaisedBy u v j) (hvw : RaisedBy v w k) : RaisedBy u w (j + k) where
  scl_eq := by rw [hvw.scl_eq, huv.scl_eq, add_assoc]
  mant_eq := by rw [hvw.mant_eq, huv.mant_eq, pow_add, mul_assoc]
  getLsbD_eq i hlo hout := (hvw.getLsbD_eq i hlo hout).trans (huv.getLsbD_eq i hlo hout)

/-- One pass of the loop of `raise_scale` whose `mul10` does not overflow. -/
theorem step {w : Value} (hfits : mant w * 10 < 2 ^ 96) (hscl : scl w + 1 < 2 ^ 8) :
    RaisedBy w (withScale (withMant w (mant w * 10)) (scl w + 1)) 1 where
  scl_eq := by rw [scl_withScale, Nat.mod_eq_of_lt hscl]
  mant_eq := by rw [mant_withScale, mant_withMant, Nat.mod_eq_of_lt hfits, pow_one]
  getLsbD_eq i hlo hout := by rw [getLsbD_withScale_of_outside _ _ (by omega), getLsbD_withMant, if_neg (by omega)]

theorem sgn_eq {w v : Value} {j : Nat} (h : RaisedBy w v j) : sgn v = sgn w :=
  h.getLsbD_eq 127 (by decide) (.inr (by decide))

theorem value_eq {w v : Value} {j : Nat} (h : RaisedBy w v j) : value v = value w := by
  have hpow : (10 : ℚ) ^ j ≠ 0 := by positivity
  rw [value, value, h.sgn_eq, h.mant_eq, h.scl_eq, Nat.cast_mul, Nat.cast_pow, Nat.cast_ofNat, pow_add, ← mul_assoc,
    mul_div_mul_right _ _ hpow]

end RaisedBy

/-! ### The loop `raise_scale` -/

/-- The loop makes all its steps, or stops before one whose `mul10` would overflow. -/
theorem raiseScaleBy_raisedBy (k : Nat) {w : Value} (h : scl w + k < 2 ^ 8) :
    ∃ j, RaisedBy w (raiseScaleBy k w) j ∧ (j = k ∨ j < k ∧ 2 ^ 96 ≤ mant (raiseScaleBy k w) * 10) := by
  induction k generalizing w with
  | zero => exact ⟨0, .refl w, .inl rfl⟩
  | succ k ih =>
    obtain hfits | hover := Nat.lt_or_ge (mant w * 10) (2 ^ 96)
    · have hstep := RaisedBy.step hfits (by omega)
      obtain ⟨j, hraised, hend⟩ := ih (by rw [hstep.scl_eq]; omega)
      rw [raiseScaleBy_succ_of_fits k hfits]
      exact ⟨1 + j, hstep.trans hraised, by omega⟩
    · rw [raiseScaleBy_of_overflow (k + 1) hover]
      exact ⟨0, .refl w, .inr ⟨k.succ_pos, hover⟩⟩

/-- The loop's mantissa depends on the mantissa it starts with alone. -/
theorem mant_raiseScaleBy_congr (k : Nat) {v w : Value} (h : mant v = mant w) :
    mant (raiseScaleBy k v) = mant (raiseScaleBy k w) := by
  induction k generalizing v w with
  | zero => exact h
  | succ k ih =>
    obtain hfits | hover := Nat.lt_or_ge (mant w * 10) (2 ^ 96)
    · rw [raiseScaleBy_succ_of_fits k hfits, raiseScaleBy_succ_of_fits k (h ▸ hfits)]
      exact ih (by simp [h])
    · rw [raiseScaleBy_of_overflow _ hover, raiseScaleBy_of_overflow _ (h ▸ hover), h]

/-- The calls of `mul10` are the scale steps made, and the one more that overflows where the loop stops early. -/
theorem raiseScaleCounting_eq (k : Nat) {w : Value} (h : scl w + k < 2 ^ 8) :
    raiseScaleCounting k w = (raiseScaleBy k w,
      scl (raiseScaleBy k w) - scl w + if scl (raiseScaleBy k w) < scl w + k then 1 else 0) := by
  induction k generalizing w with
  | zero => simp [raiseScaleCounting, raiseScaleBy]
  | succ k ih =>
    obtain hfits | hover := Nat.lt_or_ge (mant w * 10) (2 ^ 96)
    · have hscl := (RaisedBy.step hfits (by omega)).scl_eq
      obtain ⟨j, hraised, -⟩ :=
        raiseScaleBy_raisedBy k (w := withScale (withMant w (mant w * 10)) (scl w + 1)) (by omega)
      have hend := hraised.scl_eq
      simp only [raiseScaleBy_succ_of_fits k hfits, raiseScaleCounting, mul10_of_le hfits, Bool.false_eq_true, if_false,
        ih (w := withScale (withMant w (mant w * 10)) (scl w + 1)) (by omega), Prod.mk.injEq, true_and]
      split_ifs <;> omega
    · simp [raiseScaleCounting, mul10_of_overflow hover, raiseScaleBy_of_overflow _ hover]

/-! ### A working copy raised to a scale `t` -/

theorem raiseScale_of_le {w : Value} {t : Nat} (h : t ≤ scl w) : raiseScale w t = w := by
  rw [raiseScale, Nat.sub_eq_zero_of_le h, raiseScaleBy]

theorem raiseScale_of_overflow {w : Value} (t : Nat) (h : 2 ^ 96 ≤ mant w * 10) : raiseScale w t = w :=
  raiseScaleBy_of_overflow _ h

section
variable {w : Value} {t : Nat} (ht : t < 2 ^ 8)
include ht

theorem raiseScale_raisedBy : ∃ j, RaisedBy w (raiseScale w t) j ∧
    (j = t - scl w ∨ j < t - scl w ∧ 2 ^ 96 ≤ mant (raiseScale w t) * 10) :=
  raiseScaleBy_raisedBy _ (by have := scl_lt w; omega)

theorem value_raiseScale : value (raiseScale w t) = value w :=
  let ⟨_, hraised, _⟩ := raiseScale_raisedBy ht
  hraised.value_eq

theorem getLsbD_raiseScale {i : Nat} (hlo : 96 ≤ i) (hout : i < 112 ∨ 120 ≤ i) :
    (raiseScale w t).getLsbD i = w.getLsbD i :=
  let ⟨_, hraised, _⟩ := raiseScale_raisedBy ht
  hraised.getLsbD_eq i hlo hout

theorem le_scl_raiseScale : scl w ≤ scl (raiseScale w t) := by
  obtain ⟨j, hraised, -⟩ := raiseScale_raisedBy (w := w) ht
  rw [hraised.scl_eq]
  exact Nat.le_add_right _ _

theorem scl_raiseScale_le : scl (raiseScale w t) ≤ max (scl w) t := by
  obtain ⟨j, hraised, hend⟩ := raiseScale_raisedBy (w := w) ht
  rw [hraised.scl_eq]
  omega

/-- R120: the loop ends below the scale it aims at only where `mul10` would overflow. -/
theorem overflow_of_scl_raiseScale_lt (h : scl (raiseScale w t) < t) : 2 ^ 96 ≤ mant (raiseScale w t) * 10 := by
  obtain ⟨j, hraised, hend⟩ := raiseScale_raisedBy (w := w) ht
  rw [hraised.scl_eq] at h
  omega

/-- R121: `mul10` of zero never overflows. -/
theorem le_scl_raiseScale_of_mant_eq_zero (h : mant w = 0) : t ≤ scl (raiseScale w t) := by
  obtain ⟨j, hraised, hend⟩ := raiseScale_raisedBy (w := w) ht
  rw [hraised.mant_eq, h] at hend
  rw [hraised.scl_eq]
  omega

theorem raiseScale_raiseScale : raiseScale (raiseScale w t) t = raiseScale w t := by
  obtain hearly | hreached := Nat.lt_or_ge (scl (raiseScale w t)) t
  · exact raiseScale_of_overflow t (overflow_of_scl_raiseScale_lt ht hearly)
  · exact raiseScale_of_le hreached

theorem raiseScaleCounting_sub_scl :
    raiseScaleCounting (t - scl w) w =
      (raiseScale w t, scl (raiseScale w t) - scl w + if scl (raiseScale w t) < t then 1 else 0) := by
  have hle := le_scl_raiseScale (w := w) ht
  have hw := scl_lt w
  rw [raiseScaleCounting_eq _ (by omega), ← raiseScale]
  simp only [Prod.mk.injEq, true_and]
  split_ifs <;> omega

end

/-! ### `normalize` -/

/-- All three branches of R120: the operand whose scale is not the smaller one is raised by no step. -/
theorem normalize_eq_raiseScale (a b : Value) : normalize a b = (raiseScale a (scl b), raiseScale b (scl a)) := by
  unfold normalize
  split_ifs with hlt hgt
  · rw [raiseScale_of_le hlt.le]
  · rw [raiseScale_of_le hgt.le]
  · rw [raiseScale_of_le (Nat.le_of_not_lt hlt), raiseScale_of_le (Nat.le_of_not_lt hgt)]

theorem normalize_swap (a b : Value) : (normalize a b).swap = normalize b a := by
  rw [normalize_eq_raiseScale, normalize_eq_raiseScale, Prod.swap_prod_mk]

theorem normalize_of_scl_le {a b : Value} (h : scl a ≤ scl b) : normalize a b = (raiseScale a (scl b), b) := by
  rw [normalize_eq_raiseScale, raiseScale_of_le h]

theorem normalize_normalize_of_scl_le {a b : Value} (h : scl a ≤ scl b) :
    normalize (normalize a b).1 (normalize a b).2 = normalize a b := by
  have hle : scl (raiseScale a (scl b)) ≤ scl b := (scl_raiseScale_le (scl_lt b)).trans (max_le h le_rfl)
  rw [normalize_of_scl_le h, normalize_of_scl_le hle, raiseScale_raiseScale (scl_lt b)]

theorem normalize_normalize (a b : Value) : normalize (normalize a b).1 (normalize a b).2 = normalize a b := by
  obtain h | h := Nat.le_total (scl a) (scl b)
  · exact normalize_normalize_of_scl_le h
  · rw [← normalize_swap b a, Prod.fst_swap, Prod.snd_swap, ← normalize_swap, normalize_normalize_of_scl_le h]

/-- R121: both working copies reach the larger scale, or the one of the smaller scale stops below it because `mul10`
would overflow. -/
theorem normalize_cases (a b : Value) :
    (scl (normalize a b).1 = max (scl a) (scl b) ∧ scl (normalize a b).2 = max (scl a) (scl b)) ∨
      (scl (normalize a b).1 < scl b ∧ scl (normalize a b).2 = scl b ∧ 2 ^ 96 ≤ mant (normalize a b).1 * 10) ∨
      (scl (normalize a b).2 < scl a ∧ scl (normalize a b).1 = scl a ∧ 2 ^ 96 ≤ mant (normalize a b).2 * 10) := by
  simp only [normalize_eq_raiseScale]
  have hmaxA := scl_raiseScale_le (w := a) (scl_lt b)
  have hmaxB := scl_raiseScale_le (w := b) (scl_lt a)
  have hleA := le_scl_raiseScale (w := a) (scl_lt b)
  have hleB := le_scl_raiseScale (w := b) (scl_lt a)
  obtain hearlyA | hreachA := Nat.lt_or_ge (scl (raiseScale a (scl b))) (scl b)
  · exact .inr (.inl ⟨hearlyA, by omega, overflow_of_scl_raiseScale_lt (scl_lt b) hearlyA⟩)
  obtain hearlyB | hreachB := Nat.lt_or_ge (scl (raiseScale b (scl a))) (scl a)
  · exact .inr (.inr ⟨hearlyB, by omega, overflow_of_scl_raiseScale_lt (scl_lt a) hearlyB⟩)
  · exact .inl (by omega)

/-! ### Magnitudes as rationals -/

theorem abs_value (w : Value) : |value w| = (mant w : ℚ) / 10 ^ scl w := by
  rw [value]
  cases sgn w <;> simp [abs_div]

theorem abs_value_pack (s : Bool) {e m : Nat} (he : e < 2 ^ 8) (hm : m < 2 ^ 96) :
    |value (pack s e m)| = (m : ℚ) / 10 ^ e := by
  rw [abs_value, mant_pack s he hm, scl_pack s he hm]

theorem abs_value_mul_pow (w : Value) : |value w| * 10 ^ scl w = mant w := by
  rw [abs_value, div_mul_cancel₀ _ (by positivity)]

/-- R133: an operand that stops early has, at the scale it aims at, a magnitude beyond every mantissa: the loop stopped
at a mantissa whose tenfold is too large already. -/
theorem le_abs_value_of_early_stop {w : Value} {t : Nat} (ht : t < 2 ^ 8) (h : scl (raiseScale w t) < t) :
    (2 : ℚ) ^ 96 ≤ |value w| * 10 ^ t := by
  obtain ⟨d, hd⟩ := Nat.exists_eq_add_of_le h
  have hover : (2 : ℚ) ^ 96 ≤ mant (raiseScale w t) * 10 := by exact_mod_cast overflow_of_scl_raiseScale_lt ht h
  calc (2 : ℚ) ^ 96 ≤ mant (raiseScale w t) * 10 := hover
    _ ≤ mant (raiseScale w t) * 10 * 10 ^ d := le_mul_of_one_le_right (by positivity) (one_le_pow₀ (by norm_num))
    _ = |value (raiseScale w t)| * 10 ^ scl (raiseScale w t) * 10 * 10 ^ d := by rw [abs_value_mul_pow]
    _ = |value w| * 10 ^ (scl (raiseScale w t) + 1 + d) := by rw [value_raiseScale ht, pow_add, pow_succ]; ring
    _ = |value w| * 10 ^ t := by rw [← hd]

/-- R133: the operand that stops early is the larger one, and exceeds every mantissa at the larger scale. -/
theorem magnitudes_of_early_stop {a b : Value} (h : scl (normalize a b).1 < scl (normalize a b).2) :
    |value b| < |value a| ∧ (2 ^ 96 - 1 : ℚ) < |value a| * 10 ^ scl b := by
  have hearly : scl (normalize a b).1 < scl b := by
    have hcases := normalize_cases a b
    omega
  rw [normalize_eq_raiseScale] at hearly
  have hlarge := le_abs_value_of_early_stop (scl_lt b) hearly
  have hmant : (mant b : ℚ) < 2 ^ 96 := by exact_mod_cast mant_lt b
  refine ⟨lt_of_mul_lt_mul_right (a := (10 : ℚ) ^ scl b) ?_ (by positivity), by linarith⟩
  rw [abs_value_mul_pow]
  exact hmant.trans_le hlarge

end Sys2Proof.Machine
end

section
/-! The compare and normalise commands (R122 to R132): what each answers behind its check of both operands. -/

namespace Sys2Proof.Machine

open Sys2Proof.Claims

/-! ### The check of both operands (R187) -/

theorem answersBadInput_of_checkCanonAB {i : Instr} {s k : State} (hexec : exec i s = .next (checkCanonAB s k))
    (hbad : canon s.latch.a = false ∨ canon s.latch.b = false) : AnswersBadInput i s := by
  rw [AnswersBadInput, hexec, checkCanonAB_of_not k hbad]
  rfl

theorem answersOk_of_checkCanonAB {i : Instr} {s : State} {r x : Value}
    (hexec : exec i s = .next (checkCanonAB s (finish .ok r x s))) (ha : canon s.latch.a = true)
    (hb : canon s.latch.b = true) : AnswersOk i s r x := by
  rw [AnswersOk, hexec, checkCanonAB_of_canon _ ha hb]
  rfl

/-! ### The two comparisons -/

/-- R122: clearing the signs changes no mantissa of the working copies. -/
theorem cmpabs_eq_mcmp (a b : Value) : cmpabs a b = mcmp (mant (normalize a b).1) (mant (normalize a b).2) := by
  have hmant (w : Value) (t : Nat) : mant (raiseScale (withSign w false) t) = mant (raiseScale w t) := by
    rw [raiseScale, scl_withSign]
    exact mant_raiseScaleBy_congr _ (mant_withSign w false)
  simp only [cmpabs, normalize_eq_raiseScale, scl_withSign, hmant]

/-- An operand that can make no scale step is compared by the mantissa it has. -/
theorem cmpabs_of_overflow {a b : Value} (hscl : scl a ≤ scl b) (hover : 2 ^ 96 ≤ mant a * 10) :
    cmpabs a b = mcmp (mant a) (mant b) := by
  rw [cmpabs_eq_mcmp, normalize_of_scl_le hscl, raiseScale_of_overflow _ hover]

section
variable {a b : Value}

theorem scmp_of_zeros (ha : mant a = 0) (hb : mant b = 0) : scmp a b = .eq := by
  simp [scmp, isZero, ha, hb]

theorem scmp_of_left_zero (ha : mant a = 0) (hb : mant b ≠ 0) : scmp a b = if sgn b then .gt else .lt := by
  simp [scmp, isZero, ha, hb]

theorem scmp_of_right_zero (ha : mant a ≠ 0) (hb : mant b = 0) : scmp a b = if sgn a then .lt else .gt := by
  simp [scmp, isZero, ha, hb]

theorem scmp_of_sgn_ne (ha : mant a ≠ 0) (hb : mant b ≠ 0) (h : sgn a ≠ sgn b) :
    scmp a b = if sgn a then .lt else .gt := by
  simp [scmp, isZero, ha, hb, h]

theorem scmp_of_sgn_eq (ha : mant a ≠ 0) (hb : mant b ≠ 0) (h : sgn a = sgn b) :
    scmp a b = if sgn a then (cmpabs a b).swap else cmpabs a b := by
  simp [scmp, isZero, ha, hb, h]

end

/-! ### R133's operands -/

theorem canon_pack (s : Bool) {e m : Nat} (he : e ≤ 28) (hm : m < 2 ^ 96) : canon (pack s e m) = true := by
  rwa [canon_iff, scl_pack s (by omega) hm]

theorem cmpabs_maxMantissas : cmpabs (pack false 0 (2 ^ 96 - 1)) (pack false 1 (2 ^ 96 - 1)) = .eq := by
  rw [cmpabs_of_overflow (by decide) (by decide)]
  decide

theorem scmp_maxMantissas : scmp (pack false 0 (2 ^ 96 - 1)) (pack false 1 (2 ^ 96 - 1)) = .eq := by
  rw [scmp_of_sgn_eq (by decide) (by decide) (by decide), cmpabs_maxMantissas]
  decide

theorem cmpabs_tenPow28_maxMantissa : cmpabs (pack false 0 (10 ^ 28)) (pack false 1 (2 ^ 96 - 1)) = .lt := by
  rw [cmpabs_of_overflow (by decide) (by decide)]
  decide

/-! ### The answers -/

@[simp] theorem compareCode_lt : compareCode .lt = 0xFFFFFFFF#128 := rfl

@[simp] theorem compareCode_eq : compareCode .eq = 0 := rfl

@[simp] theorem compareCode_gt : compareCode .gt = 1 := rfl

/-- R123's cases, each with its compare code. -/
theorem compareCode_scmp (a b : Value) :
    compareCode (scmp a b) =
      if mant a = 0 ∧ mant b = 0 then 0
      else if mant a = 0 then (if sgn b then 1 else 0xFFFFFFFF#128)
      else if mant b = 0 then (if sgn a then 0xFFFFFFFF#128 else 1)
      else if sgn a ≠ sgn b then (if sgn a then 0xFFFFFFFF#128 else 1)
      else if mant (normalize a b).1 = mant (normalize a b).2 then 0
      else if mant (normalize a b).1 < mant (normalize a b).2 then (if sgn a then 1 else 0xFFFFFFFF#128)
      else if sgn a then 0xFFFFFFFF#128 else 1 := by
  by_cases ha : mant a = 0
  · by_cases hb : mant b = 0
    · simp [scmp_of_zeros ha hb, ha, hb]
    · simp [scmp_of_left_zero ha hb, apply_ite compareCode, ha, hb]
  by_cases hb : mant b = 0
  · simp [scmp_of_right_zero ha hb, apply_ite compareCode, ha, hb]
  by_cases hsgn : sgn a = sgn b
  · rw [scmp_of_sgn_eq ha hb hsgn, cmpabs_eq_mcmp, mcmp]
    obtain hlt | heq | hgt := Nat.lt_trichotomy (mant (normalize a b).1) (mant (normalize a b).2)
    · simp [apply_ite compareCode, ha, hb, hsgn, hlt, hlt.ne]
    · simp [ha, hb, hsgn, heq]
    · simp [apply_ite compareCode, ha, hb, hsgn, hgt.not_gt, hgt.ne']
  · simp [scmp_of_sgn_ne ha hb hsgn, apply_ite compareCode, ha, hb, hsgn]

theorem cmpabs_answersOk {s : State} (ha : canon s.latch.a = true) (hb : canon s.latch.b = true) :
    AnswersOk .cmpabs s 0 (compareCode (cmpabs s.latch.a s.latch.b)) :=
  answersOk_of_checkCanonAB rfl ha hb

theorem cmp_answersOk {s : State} (ha : canon s.latch.a = true) (hb : canon s.latch.b = true) :
    AnswersOk .cmp s 0 (compareCode (scmp s.latch.a s.latch.b)) :=
  answersOk_of_checkCanonAB rfl ha hb

theorem norm_answersOk {s : State} (ha : canon s.latch.a = true) (hb : canon s.latch.b = true) :
    AnswersOk .norm s (normalize s.latch.a s.latch.b).1 (normalize s.latch.a s.latch.b).2 :=
  answersOk_of_checkCanonAB rfl ha hb

/-- R127 to R132: a command of the six predicates' shape answers its predicate of `scmp`. -/
theorem predicate_answersOk {i : Instr} {s : State} {p : Ordering → Bool}
    (hexec : exec i s = .next (finishPredicate p s)) (ha : canon s.latch.a = true)
    (hb : canon s.latch.b = true) : AnswersOk i s 0 (flagBit (p (scmp s.latch.a s.latch.b))) :=
  answersOk_of_checkCanonAB hexec ha hb

end Sys2Proof.Machine

namespace Sys2Proof.Proofs

open Sys2Proof.Machine Sys2Proof.Claims

/-- Settles O33: `cmpabs` compares the normalised mantissas, and the compare code of `mcmp` is the answer. -/
theorem cmpabsComparesNormalisedMantissas : Obligations.CmpabsComparesNormalisedMantissas := by
  refine ⟨opcodeIs_of_decodeFields fun _ _ => rfl, fun s hbad => answersBadInput_of_checkCanonAB rfl hbad,
    fun s ha hb => ?_⟩
  have hanswer := cmpabs_answersOk ha hb
  rwa [cmpabs_eq_mcmp, compareCode_mcmp] at hanswer

/-- Settles O34: the compare code of `scmp` in each case of R123. -/
theorem cmpFollowsTheSignedOrder : Obligations.CmpFollowsTheSignedOrder := by
  refine ⟨opcodeIs_of_decodeFields fun _ _ => rfl, fun s hbad => answersBadInput_of_checkCanonAB rfl hbad,
    fun s ha hb => ?_⟩
  have hanswer := cmp_answersOk ha hb
  rwa [compareCode_scmp] at hanswer

/-- Settles O35: `c` is the number of CMP's own three-way answer, and each predicate's bit is read off that answer. -/
theorem predicatesReadCmp : Obligations.PredicatesReadCmp := by
  refine ⟨opcodeIs_of_decodeFields fun _ _ => rfl, opcodeIs_of_decodeFields fun _ _ => rfl,
    opcodeIs_of_decodeFields fun _ _ => rfl, opcodeIs_of_decodeFields fun _ _ => rfl,
    opcodeIs_of_decodeFields fun _ _ => rfl, opcodeIs_of_decodeFields fun _ _ => rfl, fun s hbad i hi => ?_,
    fun s ha hb => ?_⟩
  · simp only [List.mem_cons, List.not_mem_nil, or_false] at hi
    obtain rfl | rfl | rfl | rfl | rfl | rfl := hi <;> exact answersBadInput_of_checkCanonAB rfl hbad
  · have hlt := predicate_answersOk (i := .lt) rfl ha hb
    have hle := predicate_answersOk (i := .le) rfl ha hb
    have hgt := predicate_answersOk (i := .gt) rfl ha hb
    have hge := predicate_answersOk (i := .ge) rfl ha hb
    have heq := predicate_answersOk (i := .eq) rfl ha hb
    have hne := predicate_answersOk (i := .ne) rfl ha hb
    have hcmp := cmp_answersOk ha hb
    cases hc : scmp s.latch.a s.latch.b <;> rw [hc] at hlt hle hgt hge heq hne hcmp
    · exact ⟨-1, by decide, by decide, hcmp, hlt, hle, hgt, hge, heq, hne⟩
    · exact ⟨0, by decide, by decide, hcmp, hlt, hle, hgt, hge, heq, hne⟩
    · exact ⟨1, by decide, by decide, hcmp, hlt, hle, hgt, hge, heq, hne⟩

/-- Settles O37: `magnitudes_of_early_stop` for each operand, and R133's examples run on the model. -/
theorem earlyStopOnExtremeMagnitudes : Obligations.EarlyStopOnExtremeMagnitudes := by
  refine ⟨fun a b _ _ => ⟨magnitudes_of_early_stop, fun h => ?_⟩, fun s ha hb => ?_, fun s ha hb => ?_⟩
  · rw [← normalize_swap] at h
    exact magnitudes_of_early_stop h
  · obtain ⟨hca, hcb⟩ : canon s.latch.a = true ∧ canon s.latch.b = true := by simp [ha, hb, canon_pack]
    have habs := cmpabs_answersOk hca hcb
    have heq := predicate_answersOk (i := .eq) rfl hca hcb
    have hgt := predicate_answersOk (i := .gt) rfl hca hcb
    rw [ha, hb, cmpabs_maxMantissas] at habs
    rw [ha, hb, scmp_maxMantissas] at heq hgt
    refine ⟨?_, habs, heq, hgt⟩
    rw [ha, hb, abs_value_pack _ (by decide) (by decide), abs_value_pack _ (by decide) (by decide)]
    norm_num
  · obtain ⟨hca, hcb⟩ : canon s.latch.a = true ∧ canon s.latch.b = true := by simp [ha, hb, canon_pack]
    have habs := cmpabs_answersOk hca hcb
    rw [ha, hb, cmpabs_tenPow28_maxMantissa] at habs
    refine ⟨?_, habs⟩
    rw [ha, hb, abs_value_pack _ (by decide) (by decide), abs_value_pack _ (by decide) (by decide)]
    norm_num

/-- Settles O38: R and X are the two working copies, each its operand raised to the other's scale. -/
theorem normAlignsScales : Obligations.NormAlignsScales := by
  refine ⟨opcodeIs_of_decodeFields fun _ _ => rfl, fun s hbad => answersBadInput_of_checkCanonAB rfl hbad,
    fun s ha hb => ?_⟩
  have hta := scl_lt s.latch.a
  have htb := scl_lt s.latch.b
  have hanswer := norm_answersOk ha hb
  rw [normalize_eq_raiseScale] at hanswer
  refine ⟨_, _, hanswer, value_raiseScale htb, value_raiseScale hta, le_scl_raiseScale htb, le_scl_raiseScale hta,
    scl_raiseScale_le htb, (scl_raiseScale_le hta).trans_eq (max_comm _ _), raiseScale_of_le, raiseScale_of_le,
    fun i hlo hout => ⟨getLsbD_raiseScale htb hlo (hout.imp_right And.left),
      getLsbD_raiseScale hta hlo (hout.imp_right And.left)⟩, ?_⟩
  have hcases := normalize_cases s.latch.a s.latch.b
  rw [normalize_eq_raiseScale] at hcases
  omega

/-- Settles O39: the counting loop leaves the word of `raiseScale`, and each other property is a lemma of its own. -/
theorem normalizeProperties : Obligations.NormalizeProperties := by
  intro a b ha hb
  rw [canon_iff] at ha hb
  have hta := scl_lt a
  have htb := scl_lt b
  have hcases := normalize_cases a b
  refine ⟨?_, ?_, ?_, ?_, normalize_normalize a b, ?_, ?_⟩
  · have hleA := le_scl_raiseScale (w := a) htb
    have hleB := le_scl_raiseScale (w := b) hta
    simp only [normalize_eq_raiseScale] at hcases ⊢
    refine ⟨_, _, raiseScaleCounting_sub_scl htb, raiseScaleCounting_sub_scl hta, ?_, ?_, ?_⟩
    · split_ifs <;> omega
    · rw [Int.abs_eq_natAbs]
      split_ifs <;> omega
    · rw [Int.abs_eq_natAbs]
      omega
  · rw [normalize_eq_raiseScale]
    exact value_raiseScale htb
  · rw [normalize_eq_raiseScale]
    exact value_raiseScale hta
  · obtain hreached | ⟨hearly, -, hover⟩ | ⟨hearly, -, hover⟩ := hcases
    · exact .inl hreached
    · exact .inr (.inl ⟨hearly, by rw [mul10_of_overflow hover]⟩)
    · exact .inr (.inr ⟨hearly, by rw [mul10_of_overflow hover]⟩)
  · rw [normalize_eq_raiseScale]
    exact le_scl_raiseScale_of_mant_eq_zero htb
  · rw [normalize_eq_raiseScale]
    exact le_scl_raiseScale_of_mant_eq_zero hta

end Sys2Proof.Proofs
end

section
/-! The sign flip (R142, R147): what it leaves in each bit and each field of the word. -/

namespace Sys2Proof.Machine

open Sys2Proof.Claims

theorem getLsbD_flipSign (w : Value) {i : Nat} (hi : i < 128) :
    (flipSign w).getLsbD i = if i = 127 then !w.getLsbD 127 else w.getLsbD i :=
  getLsbD_withSign w (!sgn w) hi

theorem getLsbD_flipSign_of_lt (w : Value) {i : Nat} (hi : i < 127) : (flipSign w).getLsbD i = w.getLsbD i := by
  rw [getLsbD_flipSign w (by omega), if_neg (by omega)]

@[simp] theorem sgn_flipSign (w : Value) : sgn (flipSign w) = !sgn w := sgn_withSign w _

@[simp] theorem mant_flipSign (w : Value) : mant (flipSign w) = mant w := mant_withSign w _

@[simp] theorem scl_flipSign (w : Value) : scl (flipSign w) = scl w := scl_withSign w _

@[simp] theorem canon_flipSign (w : Value) : canon (flipSign w) = canon w := canon_withSign w _

@[simp] theorem flipSign_flipSign (w : Value) : flipSign (flipSign w) = w := by
  apply BitVec.eq_of_getLsbD_eq
  intro i hi
  rw [getLsbD_flipSign _ hi, getLsbD_flipSign w hi, getLsbD_flipSign w (by decide)]
  by_cases hsign : i = 127 <;> simp [hsign]

theorem neg_answersOk (s : State) : AnswersOk (.neg false) s (flipSign s.latch.a) 0 := rfl

end Sys2Proof.Machine

namespace Sys2Proof.Proofs

open Sys2Proof.Machine Sys2Proof.Claims

/-- Settles O24: NEG flips the sign behind no check but ND's, and the flip is its own inverse. -/
theorem negInvertsTheSignBitOnly : Obligations.NegInvertsTheSignBitOnly := by
  refine ⟨opcodeIs_of_decodeFields fun _ _ => rfl, fun _ => rfl, fun s =>
    ⟨flipSign s.latch.a, neg_answersOk s, sgn_flipSign _, fun i hi => getLsbD_flipSign_of_lt _ hi, ?_⟩⟩
  simpa [withOperands] using neg_answersOk (withOperands s (flipSign s.latch.a) s.latch.b)

end Sys2Proof.Proofs
end

section
/-! The answers of the commands that check both operands (R182, R196), from the completion behind the checks. -/

namespace Sys2Proof.Machine

open Sys2Proof.Claims

/-- Canonical operands pass R187's check, which leaves the command's own part. -/
theorem exec_of_checkCanonAB {i : Instr} {s k : State} (hexec : exec i s = .next (checkCanonAB s k))
    (ha : canon s.latch.a = true) (hb : canon s.latch.b = true) : exec i s = .next k := by
  rw [hexec, checkCanonAB_of_canon k ha hb]

theorem answersUnspecR_of_exec {i : Instr} {s : State} {st : Status}
    (hexec : exec i s = .next (finishUnspecR st s)) : AnswersUnspecR i s st 0 :=
  ⟨_, _, hexec⟩

/-- A packed R, as R60's sum. -/
theorem exists_answersOk_of_pack {i : Instr} {s : State} {sign : Bool} {e m : Nat}
    (hexec : exec i s = .next (finish .ok (pack sign e m) 0 s)) (he : e < 2 ^ 8) (hm : m < 2 ^ 96) :
    ∃ r, AnswersOk i s r 0 ∧ r.toNat = sign.toNat * 2 ^ 127 + e * 2 ^ 112 + m :=
  ⟨_, hexec, toNat_pack sign he hm⟩

end Sys2Proof.Machine
end

section
/-! ADD and SUB (R140 to R142): the signed sum in its cases, ADD's own part, and SUB as ADD on B with its sign
flipped. -/

namespace Sys2Proof.Machine

open Sys2Proof.Claims

/-! ### The signed sum of two non-zero operands (R140) -/

section
variable {a b : Value}

theorem smadd_of_fits (hsgn : sgn a = sgn b) (h : mant (normalize a b).1 + mant (normalize a b).2 < 2 ^ 96) :
    smadd a b = some (pack (sgn a) (scl (normalize a b).1) (mant (normalize a b).1 + mant (normalize a b).2)) := by
  simp only [smadd, madd, if_pos hsgn, decide_eq_false (Nat.not_le_of_lt h), Bool.false_eq_true, if_false,
    Nat.mod_eq_of_lt h]

theorem smadd_of_carry (hsgn : sgn a = sgn b) (h : 2 ^ 96 ≤ mant (normalize a b).1 + mant (normalize a b).2) :
    smadd a b = none := by
  simp only [smadd, madd, if_pos hsgn, decide_eq_true h, if_true]

theorem smadd_of_gt (hsgn : sgn a ≠ sgn b) (h : mant (normalize a b).2 < mant (normalize a b).1) :
    smadd a b = some (pack (sgn a) (scl (normalize a b).1) (mant (normalize a b).1 - mant (normalize a b).2)) := by
  simp only [smadd, if_neg hsgn, (mcmp_gt_iff _ _).mpr h]

theorem smadd_of_lt (hsgn : sgn a ≠ sgn b) (h : mant (normalize a b).1 < mant (normalize a b).2) :
    smadd a b = some (pack (sgn b) (scl (normalize a b).1) (mant (normalize a b).2 - mant (normalize a b).1)) := by
  simp only [smadd, if_neg hsgn, (mcmp_lt_iff _ _).mpr h]

theorem smadd_of_eq (hsgn : sgn a ≠ sgn b) (h : mant (normalize a b).1 = mant (normalize a b).2) :
    smadd a b = some (pack false (scl (normalize a b).1) 0) := by
  simp only [smadd, if_neg hsgn, (mcmp_eq_iff _ _).mpr h]

/-! ### ADD's own part (R141) -/

theorem addCore_of_left_zero (s : State) (ha : mant a = 0) : addCore a b s = finish .ok b 0 s :=
  if_pos ((isZero_iff a).mpr ha)

theorem addCore_of_right_zero (s : State) (ha : mant a ≠ 0) (hb : mant b = 0) : addCore a b s = finish .ok a 0 s :=
  (if_neg (mt (isZero_iff a).mp ha)).trans (if_pos ((isZero_iff b).mpr hb))

theorem addCore_of_ne_zero (s : State) (ha : mant a ≠ 0) (hb : mant b ≠ 0) :
    addCore a b s = finishSum (smadd a b) s :=
  (if_neg (mt (isZero_iff a).mp ha)).trans (if_neg (mt (isZero_iff b).mp hb))

end

theorem add_of_canon {s : State} (ha : canon s.latch.a = true) (hb : canon s.latch.b = true) :
    exec (.add false) s = .next (addCore s.latch.a s.latch.b s) :=
  exec_of_checkCanonAB rfl ha hb

theorem add_of_ne_zero {s : State} (ha : canon s.latch.a = true) (hb : canon s.latch.b = true)
    (hza : mant s.latch.a ≠ 0) (hzb : mant s.latch.b ≠ 0) :
    exec (.add false) s = .next (finishSum (smadd s.latch.a s.latch.b) s) := by
  rw [add_of_canon ha hb, addCore_of_ne_zero s hza hzb]

/-! ### SUB (R142) -/

/-- The sign of B takes no part in normalisation, so the carry is the one of the mantissas as given. -/
theorem mant_normalize_flipSign (a b : Value) :
    mant (normalize a (flipSign b)).1 = mant (normalize a b).1 ∧
      mant (normalize a (flipSign b)).2 = mant (normalize a b).2 := by
  simp only [normalize_eq_raiseScale, scl_flipSign, true_and, raiseScale]
  exact mant_raiseScaleBy_congr _ (mant_flipSign b)

theorem sub_of_canon {s : State} (ha : canon s.latch.a = true) (hb : canon s.latch.b = true) :
    exec (.sub false) s = .next (addCore s.latch.a (flipSign s.latch.b) s) :=
  exec_of_checkCanonAB rfl ha hb

/-- ADD's own part takes its operands as arguments and does not read the latch. -/
theorem addCore_withOperands (a b v w : Value) (s : State) :
    addCore a b (withOperands s v w) = withOperands (addCore a b s) v w := by
  by_cases ha : mant a = 0
  · rw [addCore_of_left_zero _ ha, addCore_of_left_zero _ ha]
    rfl
  by_cases hb : mant b = 0
  · rw [addCore_of_right_zero _ ha hb, addCore_of_right_zero _ ha hb]
    rfl
  · rw [addCore_of_ne_zero _ ha hb, addCore_of_ne_zero _ ha hb]
    cases smadd a b <;> rfl

/-- The check of both operands reads nothing of the latch but which of them are canonical. -/
theorem checkCanonAB_withOperands {v w : Value} {s : State} (k : State) (hv : canon v = canon s.latch.a)
    (hw : canon w = canon s.latch.b) :
    checkCanonAB (withOperands s v w) (withOperands k v w) = withOperands (checkCanonAB s k) v w := by
  simp only [checkCanonAB, withOperands, hv, hw]
  split_ifs <;> rfl

/-- R142: both commands check the same scales, and then run the same part on the same operands. -/
theorem add_flipSign_of_sub {s t : State} (hsub : exec (.sub false) s = .next t) :
    exec (.add false) (withOperands s s.latch.a (flipSign s.latch.b)) =
      .next (withOperands t s.latch.a (flipSign s.latch.b)) := by
  obtain rfl : checkCanonAB s (addCore s.latch.a (flipSign s.latch.b) s) = t := by injection hsub
  rw [← checkCanonAB_withOperands _ rfl (canon_flipSign _), ← addCore_withOperands]
  rfl

theorem sub_answersUnspecR_of_carry {s : State} (ha : canon s.latch.a = true) (hb : canon s.latch.b = true)
    (hza : mant s.latch.a ≠ 0) (hzb : mant s.latch.b ≠ 0) (hsgn : sgn s.latch.a ≠ sgn s.latch.b)
    (hcarry : 2 ^ 96 ≤ mant (normalize s.latch.a s.latch.b).1 + mant (normalize s.latch.a s.latch.b).2) :
    AnswersUnspecR (.sub false) s .big 0 := by
  have hexec := sub_of_canon ha hb
  obtain ⟨hfst, hsnd⟩ := mant_normalize_flipSign s.latch.a s.latch.b
  have hsame : sgn s.latch.a = sgn (flipSign s.latch.b) := by rwa [sgn_flipSign, Bool.eq_not]
  rw [addCore_of_ne_zero s hza (by rwa [mant_flipSign]), smadd_of_carry hsame (by rwa [hfst, hsnd])] at hexec
  exact answersUnspecR_of_exec hexec

end Sys2Proof.Machine

namespace Sys2Proof.Proofs

open Sys2Proof.Machine Sys2Proof.Claims

/-- Settles O40: the zero tests leave the cases of the signed sum, whose mantissa fits except where there is a carry. -/
theorem addResult : Obligations.AddResult := by
  refine ⟨opcodeIs_of_decodeFields fun _ _ => rfl, fun _ => rfl,
    fun s hbad => answersBadInput_of_checkCanonAB rfl hbad, fun s ha hb => ?_⟩
  have hscl := scl_lt (normalize s.latch.a s.latch.b).1
  have hfst := mant_lt (normalize s.latch.a s.latch.b).1
  have hsnd := mant_lt (normalize s.latch.a s.latch.b).2
  dsimp only
  split_ifs with hza hzb hsgn hfits hgt hlt
  · rw [AnswersOk, add_of_canon ha hb, addCore_of_left_zero s hza]
    rfl
  · rw [AnswersOk, add_of_canon ha hb, addCore_of_right_zero s hza hzb]
    rfl
  all_goals have hexec := add_of_ne_zero ha hb hza hzb
  · rw [smadd_of_fits hsgn hfits] at hexec
    exact exists_answersOk_of_pack hexec hscl hfits
  · rw [smadd_of_carry hsgn (by omega)] at hexec
    exact answersUnspecR_of_exec hexec
  · rw [smadd_of_gt hsgn hgt] at hexec
    exact exists_answersOk_of_pack hexec hscl (by omega)
  · rw [smadd_of_lt hsgn hlt] at hexec
    exact exists_answersOk_of_pack hexec hscl (by omega)
  · rw [smadd_of_eq hsgn (by omega)] at hexec
    simpa using exists_answersOk_of_pack hexec hscl (by decide)

/-- Settles O41: `add_flipSign_of_sub` in all cases; the pass-throughs and the carry are ADD's on the flipped B. -/
theorem subIsAddOfTheNegated : Obligations.SubIsAddOfTheNegated := by
  refine ⟨opcodeIs_of_decodeFields fun _ _ => rfl, fun _ => rfl,
    fun s hbad => answersBadInput_of_checkCanonAB rfl hbad, fun s =>
    ⟨flipSign s.latch.b, _, _, sgn_flipSign _, fun i hi => getLsbD_flipSign_of_lt _ hi, rfl, add_flipSign_of_sub rfl,
      rfl, rfl, fun _ => rfl, fun ha hb hza => ?_, fun ha hb hza hzb => ?_, sub_answersUnspecR_of_carry⟩⟩
  · rw [AnswersOk, sub_of_canon ha hb, addCore_of_left_zero s hza]
    rfl
  · rw [AnswersOk, sub_of_canon ha hb, addCore_of_right_zero s hza (by rwa [mant_flipSign])]
    rfl

end Sys2Proof.Proofs
end

section
/-! The digit drop (R160) and the half-even integer (R161): quotient and remainder by a power of ten, and the nearest
integer to the quotient. -/

namespace Sys2Proof.Machine

open Sys2Proof.Claims

theorem dropLoop_q (k : Nat) (g : DropRegs) : (dropLoop k g).q = g.q / 10 ^ k := by
  induction k generalizing g with
  | zero => simp [dropLoop]
  | succ k ih => rw [dropLoop, ih, dropDigit_eq, Nat.div_div_eq_div_mul, pow_succ']

/-- The digits dropped join the remainder at the weight the loop has reached. -/
theorem dropLoop_rem (k : Nat) (g : DropRegs) : (dropLoop k g).rem = g.rem + g.pw * (g.q % 10 ^ k) := by
  induction k generalizing g with
  | zero => simp [dropLoop, Nat.mod_one]
  | succ k ih =>
    rw [dropLoop, ih, dropDigit_eq, pow_succ', Nat.mod_mul]
    ring

theorem drop_q (m k : Nat) : (drop m k).q = m / 10 ^ k := dropLoop_q k _

theorem drop_rem (m k : Nat) : (drop m k).rem = m % 10 ^ k := by
  rw [drop, dropLoop_rem, zero_add, one_mul]

/-- R161: the remainder is compared with half the power of ten, and a tie goes to the even integer. -/
theorem rhe_nearestEven (m k : Nat) : NearestEven (rhe m k) m k := by
  have hdivmod := Nat.div_add_mod' m (10 ^ k)
  have hrem := Nat.mod_lt m (show 0 < 10 ^ k by positivity)
  simp only [rhe, drop_q, drop_rem]
  obtain _ | k := k
  · simp only [NearestEven, if_true, pow_zero]
    omega
  · have hhalf : 10 ^ (k + 1) = 2 * (5 * 10 ^ k) := by ring
    rw [if_neg k.succ_ne_zero, Nat.add_sub_cancel]
    split_ifs
    · simp only [NearestEven, Nat.succ_mul]
      omega
    · simp only [NearestEven]
      omega

/-- A number below one is nearest to 0 or to 1. -/
theorem le_one_of_nearestEven {q m k : Nat} (h : NearestEven q m k) (hm : m < 10 ^ k) : q ≤ 1 := by
  obtain ⟨hle, -, -⟩ := h
  by_contra! htwo
  have hmul : 2 * 10 ^ k ≤ q * 10 ^ k := Nat.mul_le_mul_right _ htwo
  omega

end Sys2Proof.Machine
end

section
/-! MUL and DIV (R143 to R146): the product and the quotient in their cases, and the scale DIV's remainder has. -/

namespace Sys2Proof.Machine

open Sys2Proof.Claims

section
variable {a b : Value}

/-! ### MUL's own part (R143, R144) -/

theorem mulCore_of_zero (s : State) (h : mant a = 0 ∨ mant b = 0) : mulCore a b s = finish .ok 0 0 s :=
  if_pos (by simpa [isZero] using h)

theorem mulCore_of_ne_zero (s : State) (h : ¬ (mant a = 0 ∨ mant b = 0)) :
    mulCore a b s =
      if 2 ^ 96 ≤ mant a * mant b then finishUnspecR .big s
      else if scl a + scl b ≤ 28 then finish .ok (pack (sgn a ^^ sgn b) (scl a + scl b) (mant a * mant b)) 0 s
      else finish .ok (pack (sgn a ^^ sgn b) 0 (rhe (mant a * mant b) (scl a + scl b))) 0 s :=
  if_neg (by simpa [isZero] using h)

/-- The sign of a product, as the factor `value` has it (R61). -/
theorem signFactor_xor (p q : Bool) :
    (if p ^^ q then -1 else 1 : ℚ) = (if p then -1 else 1) * (if q then -1 else 1) := by
  cases p <;> cases q <;> simp

/-- R144: with scales added, the product of the mantissas is the exact product. -/
theorem value_pack_mul (hscl : scl a + scl b < 2 ^ 8) (hmant : mant a * mant b < 2 ^ 96) :
    value (pack (sgn a ^^ sgn b) (scl a + scl b) (mant a * mant b)) = value a * value b := by
  rw [value, sgn_pack _ hscl hmant, mant_pack _ hscl hmant, scl_pack _ hscl hmant, signFactor_xor, value, value,
    Nat.cast_mul, pow_add]
  ring

/-! ### DIV's own part (R145, R146) -/

theorem divCore_of_zero_divisor (s : State) (hb : mant b = 0) : divCore a b s = finishUnspecR .divByZero s :=
  if_pos ((isZero_iff b).mpr hb)

theorem divCore_of_zero_dividend (s : State) (hb : mant b ≠ 0) (ha : mant a = 0) :
    divCore a b s = finish .ok 0 0 s :=
  (if_neg (mt (isZero_iff b).mp hb)).trans (if_pos ((isZero_iff a).mpr ha))

theorem isSmallQuotient_iff (q e : Nat) : isSmallQuotient q e = true ↔ 0 < q ∧ q < 2 ^ 32 ∧ e = 28 := by
  simp [isSmallQuotient, and_assoc]

theorem divCore_of_ne_zero (s : State) (hb : mant b ≠ 0) (ha : mant a ≠ 0) :
    divCore a b s =
      if isSmallQuotient (mant (normalize a b).1 / mant (normalize a b).2) (scl (normalize a b).1) then
        finish .small 0 0 s
      else
        finish .ok (pack (sgn a ^^ sgn b) 0 (mant (normalize a b).1 / mant (normalize a b).2))
          (pack (sgn a) (scl (normalize a b).1) (mant (normalize a b).1 % mant (normalize a b).2)) s :=
  (if_neg (mt (isZero_iff b).mp hb)).trans (if_neg (mt (isZero_iff a).mp ha))

/-- R121: the scale steps keep a divisor other than zero. -/
theorem mant_normalize_snd_ne_zero (a : Value) (hb : mant b ≠ 0) : mant (normalize a b).2 ≠ 0 := by
  obtain ⟨j, hraised, -⟩ := raiseScale_raisedBy (w := b) (scl_lt a)
  rw [normalize_eq_raiseScale, hraised.mant_eq]
  positivity

/-- R146: the dividend ends at scale 28 if it has it already, or is raised to it without an early stop. -/
theorem scl_normalize_fst_eq_28_iff (ha : scl a ≤ 28) (hb : scl b ≤ 28) :
    scl (normalize a b).1 = 28 ↔ scl a = 28 ∨ (scl b = 28 ∧ NormCompletes a b) := by
  have hle : scl a ≤ scl (normalize a b).1 := by
    rw [normalize_eq_raiseScale]
    exact le_scl_raiseScale (scl_lt b)
  have hcases := normalize_cases a b
  rw [NormCompletes]
  omega

end

/-! ### The two commands on canonical operands -/

theorem mul_of_canon {s : State} (ha : canon s.latch.a = true) (hb : canon s.latch.b = true) :
    exec (.mul false) s = .next (mulCore s.latch.a s.latch.b s) :=
  exec_of_checkCanonAB rfl ha hb

theorem div_of_canon {s : State} (ha : canon s.latch.a = true) (hb : canon s.latch.b = true) :
    exec (.div false) s = .next (divCore s.latch.a s.latch.b s) :=
  exec_of_checkCanonAB rfl ha hb

end Sys2Proof.Machine

namespace Sys2Proof.Proofs

open Sys2Proof.Machine Sys2Proof.Claims

/-- Settles O43: a product below 2^96 is below 10^29, so at a scale sum beyond 28 its half-even integer is 0 or 1. -/
theorem mulResult : Obligations.MulResult := by
  refine ⟨opcodeIs_of_decodeFields fun _ _ => rfl, fun _ => rfl,
    fun s hbad => answersBadInput_of_checkCanonAB rfl hbad, fun s ha hb => ?_⟩
  have hexec := mul_of_canon ha hb
  dsimp only
  split_ifs with hzero hbig hexact
  · rw [mulCore_of_zero s hzero] at hexec
    exact hexec
  all_goals rw [mulCore_of_ne_zero s hzero] at hexec
  · rw [if_pos hbig] at hexec
    exact answersUnspecR_of_exec hexec
  · rw [if_neg hbig, if_pos hexact] at hexec
    have hscl : scl s.latch.a + scl s.latch.b < 2 ^ 8 := by omega
    exact ⟨_, hexec, value_pack_mul hscl (Nat.lt_of_not_le hbig), toNat_pack _ hscl (Nat.lt_of_not_le hbig)⟩
  · rw [if_neg hbig, if_neg hexact] at hexec
    have hnearest := rhe_nearestEven (mant s.latch.a * mant s.latch.b) (scl s.latch.a + scl s.latch.b)
    have hbelow : mant s.latch.a * mant s.latch.b < 10 ^ (scl s.latch.a + scl s.latch.b) :=
      calc mant s.latch.a * mant s.latch.b < 2 ^ 96 := Nat.lt_of_not_le hbig
        _ ≤ 10 ^ 29 := by norm_num
        _ ≤ 10 ^ (scl s.latch.a + scl s.latch.b) := Nat.pow_le_pow_right (by decide) (by omega)
    have hone := le_one_of_nearestEven hnearest hbelow
    refine ⟨_, _, hexec, ?_, hone, hnearest⟩
    rw [toNat_pack _ (by decide) (by omega), zero_mul, add_zero]

/-- Settles O44: the zero tests leave the division of the normalised mantissas, and the SMALL guard reads its quotient
and the dividend's scale. -/
theorem divResult : Obligations.DivResult := by
  refine ⟨opcodeIs_of_decodeFields fun _ _ => rfl, fun _ => rfl,
    fun s hbad => answersBadInput_of_checkCanonAB rfl hbad, fun s ha hb => ?_⟩
  have hexec := div_of_canon ha hb
  dsimp only
  split_ifs with hzb hza
  · rw [divCore_of_zero_divisor s hzb] at hexec
    exact answersUnspecR_of_exec hexec
  · rw [divCore_of_zero_dividend s hzb hza] at hexec
    exact hexec
  · rw [divCore_of_ne_zero s hzb hza] at hexec
    have hrem := Nat.mod_lt (mant (normalize s.latch.a s.latch.b).1)
      (Nat.pos_of_ne_zero (mant_normalize_snd_ne_zero s.latch.a hzb))
    refine ⟨_, _, (Nat.div_add_mod _ _).symm, hrem,
      scl_normalize_fst_eq_28_iff ((canon_iff _).mp ha) ((canon_iff _).mp hb), ?_⟩
    split_ifs with hsmall
    · rw [if_pos ((isSmallQuotient_iff _ _).mpr hsmall)] at hexec
      exact hexec
    · rw [if_neg (mt (isSmallQuotient_iff _ _).mp hsmall)] at hexec
      refine ⟨_, _, hexec, ?_, toNat_pack _ (scl_lt _) (hrem.trans (mant_lt _))⟩
      rw [toNat_pack _ (by decide) ((Nat.div_le_self _ _).trans_lt (mant_lt _)), zero_mul, add_zero]

end Sys2Proof.Proofs
end

section
/-! What R160's loop leaves in its last two registers, and the integer magnitude of each rounding command (R161 to
R165) as arithmetic on `m` and `10 ^ k`: none is above `m`. -/

namespace Sys2Proof.Machine

open Sys2Proof.Claims

/-! ### The digit drop (R160) -/

/-- The digit dropped last is the one the earlier rounds have moved to the unit's place. -/
theorem dropLoop_d (k : Nat) (g : DropRegs) : (dropLoop (k + 1) g).d = g.q / 10 ^ k % 10 := by
  induction k generalizing g with
  | zero => rw [pow_zero, Nat.div_one, dropLoop, dropLoop, dropDigit_eq]
  | succ k ih => rw [dropLoop, ih, dropDigit_eq, Nat.div_div_eq_div_mul, pow_succ']

theorem dropLoop_nz (k : Nat) (g : DropRegs) :
    (dropLoop k g).nz = true ↔ g.nz = true ∨ g.q % 10 ^ k ≠ 0 := by
  induction k generalizing g with
  | zero => simp [dropLoop, Nat.mod_one]
  | succ k ih =>
    have hdigit : g.q % 10 ^ (k + 1) = 0 ↔ g.q % 10 = 0 ∧ g.q / 10 % 10 ^ k = 0 := by
      rw [pow_succ', Nat.mod_mul]
      omega
    simp only [dropLoop, ih, dropDigit_eq, Bool.or_eq_true, bne_iff_ne, ne_eq, hdigit, not_and_or, or_assoc]

theorem drop_d (m k : Nat) : (drop m (k + 1)).d = m / 10 ^ k % 10 := dropLoop_d k _

theorem drop_nz_iff (m k : Nat) : (drop m k).nz = true ↔ m % 10 ^ k ≠ 0 := by
  simp [drop, dropLoop_nz]

/-! ### The four magnitudes -/

theorem truncMagnitude_eq (m k : Nat) : truncMagnitude m k = m / 10 ^ k := drop_q m k

/-- R163: only the first fractional digit decides, since adding 5 there carries exactly if it is 5 or more. -/
theorem roundHalfUp_eq (m k : Nat) : roundHalfUp m k = (2 * m + 10 ^ k) / (2 * 10 ^ k) := by
  obtain _ | k := k
  · change m = _
    omega
  · have hhalves : 2 * m + 10 ^ (k + 1) = 2 * (m + 5 * 10 ^ k) := by ring
    have hfive : (2 * m + 10 ^ (k + 1)) / (2 * 10 ^ (k + 1)) = (m / 10 ^ k + 5) / 10 := by
      rw [hhalves, Nat.mul_div_mul_left _ _ two_pos, pow_succ, ← Nat.div_div_eq_div_mul,
        Nat.add_mul_div_right _ _ (by positivity)]
    rw [hfive, roundHalfUp, drop_q, drop_d, pow_succ, ← Nat.div_div_eq_div_mul]
    split_ifs <;> omega

theorem floorMagnitude_false (m k : Nat) : floorMagnitude false m k = m / 10 ^ k := drop_q m k

/-- R164: below zero the magnitude is rounded up. -/
theorem floorMagnitude_true (m k : Nat) : floorMagnitude true m k = m ⌈/⌉ 10 ^ k := by
  have hdivmod := Nat.div_add_mod' m (10 ^ k)
  have hrem := Nat.mod_lt m (show 0 < 10 ^ k by positivity)
  simp only [floorMagnitude, Bool.true_and, drop_nz_iff, drop_q]
  rw [Nat.ceilDiv_eq_add_pred_div, eq_comm, Nat.div_eq_iff (by positivity)]
  split_ifs with hrest
  · rw [Nat.succ_mul]
    omega
  · omega

/-- A number below `m / 10 ^ k + 1` is at most `m`. -/
theorem le_of_mul_pow_lt {q m k : Nat} (h : q * 10 ^ k < m + 10 ^ k) : q ≤ m := by
  have hpos : 0 < 10 ^ k := by positivity
  have hself : m ≤ m * 10 ^ k := Nat.le_mul_of_pos_right m hpos
  by_contra! hlt
  have hmul : (m + 1) * 10 ^ k ≤ q * 10 ^ k := Nat.mul_le_mul_right _ hlt
  rw [Nat.succ_mul] at hmul
  omega

theorem rhe_le (m k : Nat) : rhe m k ≤ m := by
  obtain ⟨hle, -, -⟩ := rhe_nearestEven m k
  have hpos : 0 < 10 ^ k := by positivity
  exact le_of_mul_pow_lt (k := k) (by omega)

theorem roundHalfUp_le (m k : Nat) : roundHalfUp m k ≤ m := by
  have hle := Nat.div_mul_le_self (2 * m + 10 ^ k) (2 * 10 ^ k)
  have hpos : 0 < 10 ^ k := by positivity
  rw [← roundHalfUp_eq, Nat.mul_left_comm] at hle
  exact le_of_mul_pow_lt (k := k) (by omega)

theorem truncMagnitude_le (m k : Nat) : truncMagnitude m k ≤ m := by
  rw [truncMagnitude_eq]
  exact Nat.div_le_self _ _

theorem floorMagnitude_le (negative : Bool) (m k : Nat) : floorMagnitude negative m k ≤ m := by
  have hpos : 0 < 10 ^ k := by positivity
  cases negative with
  | false => exact truncMagnitude_le m k
  | true =>
    rw [floorMagnitude_true, ceilDiv_le_iff_le_mul hpos]
    exact Nat.le_mul_of_pos_left m hpos

theorem floorMagnitude_zero_scale (negative : Bool) (m : Nat) : floorMagnitude negative m 0 = m := by
  cases negative <;> rfl

/-- R166: on zero, whatever its sign, FLOOR truncates as it does above zero. -/
theorem floorMagnitude_eq_truncMagnitude {negative : Bool} {m : Nat} (h : negative = false ∨ m = 0) (k : Nat) :
    floorMagnitude negative m k = truncMagnitude m k := by
  obtain rfl | rfl := h
  · rfl
  · exact (Nat.le_zero.mp (floorMagnitude_le _ _ _)).trans (Nat.le_zero.mp (truncMagnitude_le _ _)).symm

/-- The ceiling of a quotient of naturals is the rounded-up division. -/
theorem ceil_natCast_div (m : Nat) {p : Nat} (hp : 0 < p) : ⌈(m / p : ℚ)⌉ = (m ⌈/⌉ p : Nat) := by
  have hceil : ⌈(m / p : ℚ)⌉₊ = m ⌈/⌉ p := by
    refine eq_of_forall_ge_iff fun c => ?_
    rw [Nat.ceil_le, ceilDiv_le_iff_le_mul hp, div_le_iff₀' (by exact_mod_cast hp)]
    norm_cast
  rw [← hceil, Int.natCast_ceil_eq_ceil (by positivity)]

/-- R164: the floor's magnitude with A's sign is the floor of A's value. -/
theorem floor_value (w : Value) :
    ⌊value w⌋ = (if sgn w then -1 else 1) * (floorMagnitude (sgn w) (mant w) (scl w) : Int) := by
  have hquot : (mant w : ℚ) / 10 ^ scl w = mant w / (10 ^ scl w : Nat) := by push_cast; rfl
  cases hsgn : sgn w with
  | false =>
    rw [floorMagnitude_false, value, hsgn]
    simp only [Bool.false_eq_true, if_false, one_mul, hquot, Rat.floor_natCast_div_natCast, Int.natCast_ediv]
  | true =>
    rw [floorMagnitude_true, value, hsgn]
    simp only [if_true, neg_one_mul, neg_div, hquot, Int.floor_neg,
      ceil_natCast_div _ (show 0 < 10 ^ scl w by positivity)]

end Sys2Proof.Machine
end

section
/-! The rounding commands (R162 to R166): what an integer magnitude with A's sign at scale 0 is as a packed word, and
the one shape of the four answers. -/

namespace Sys2Proof.Machine

open Sys2Proof.Claims

/-! ### An integer, packed -/

section
variable (sign : Bool) {q : Nat} (hq : q < 2 ^ 96)
include hq

theorem toNat_pack_integer : (pack sign 0 q).toNat = sign.toNat * 2 ^ 127 + q := by
  rw [toNat_pack sign (by decide) hq, zero_mul, add_zero]

theorem value_pack_integer : value (pack sign 0 q) = ((if sign then -1 else 1) * q : Int) := by
  rw [value, sgn_pack sign (by decide) hq, mant_pack sign (by decide) hq, scl_pack sign (by decide) hq, pow_zero,
    div_one]
  cases sign <;> simp

theorem flipSign_pack_integer : flipSign (pack sign 0 q) = pack (!sign) 0 q := by
  apply BitVec.eq_of_toNat_eq
  rw [flipSign, sgn_pack sign (by decide) hq, toNat_withSign, toNat_pack_integer sign hq, toNat_pack_integer _ hq]
  omega

end

/-! ### The answers -/

theorem answersBadInput_of_checkCanonA {i : Instr} {s k : State} (hexec : exec i s = .next (checkCanonA s k))
    (hbad : canon s.latch.a = false) : AnswersBadInput i s := by
  rw [AnswersBadInput, hexec, checkCanonA_of_not k hbad]
  rfl

theorem answersOk_of_finishRounded {i : Instr} {s : State} {q : Nat}
    (hexec : exec i s = .next (finishRounded false q s)) (ha : canon s.latch.a = true) :
    AnswersOk i s (pack (sgn s.latch.a) 0 q) 0 := by
  rw [AnswersOk, hexec, finishRounded, checkNd_false, checkCanonA_of_canon _ ha]
  rfl

section
variable {i : Instr} {s : State} {f : Nat → Nat → Nat}

/-- R166: a magnitude that is at most A's, and A's own at scale 0, gives the common properties. -/
theorem exists_answersOk_of_finishRounded
    (hexec : exec i s = .next (finishRounded false (f (mant s.latch.a) (scl s.latch.a)) s))
    (hle : ∀ m k, f m k ≤ m) (hzero : ∀ m, f m 0 = m) (ha : canon s.latch.a = true) :
    ∃ r, AnswersOk i s r 0 ∧ scl r = 0 ∧ mant r ≤ mant s.latch.a ∧
      (scl s.latch.a = 0 → r = pack (sgn s.latch.a) 0 (mant s.latch.a)) := by
  have hq := (hle (mant s.latch.a) (scl s.latch.a)).trans_lt (mant_lt s.latch.a)
  refine ⟨_, answersOk_of_finishRounded hexec ha, scl_pack _ (by decide) hq, ?_, fun h => by rw [h, hzero]⟩
  rw [mant_pack _ (by decide) hq]
  exact hle _ _

/-- R166: a magnitude that does not depend on A's sign gives the flipped answer for the flipped A. -/
theorem answersOk_flipSign_of_finishRounded
    (hexec : ∀ s, exec i s = .next (finishRounded false (f (mant s.latch.a) (scl s.latch.a)) s))
    (hle : ∀ m k, f m k ≤ m) (ha : canon s.latch.a = true) :
    ∃ r, AnswersOk i s r 0 ∧ AnswersOk i (withOperands s (flipSign s.latch.a) s.latch.b) (flipSign r) 0 := by
  have hq := (hle (mant s.latch.a) (scl s.latch.a)).trans_lt (mant_lt s.latch.a)
  refine ⟨_, answersOk_of_finishRounded (hexec s) ha, ?_⟩
  have hflipped := answersOk_of_finishRounded (hexec (withOperands s (flipSign s.latch.a) s.latch.b))
    ((canon_flipSign _).trans ha)
  simp only [withOperands, sgn_flipSign, mant_flipSign, scl_flipSign] at hflipped
  rwa [flipSign_pack_integer _ hq]

end

end Sys2Proof.Machine

namespace Sys2Proof.Proofs

open Sys2Proof.Machine Sys2Proof.Claims

/-- Settles O60: the registers of the loop, each by induction on the rounds from any start. -/
theorem digitDropResults : Obligations.DigitDropResults := by
  refine fun m k => ⟨drop_q m k, drop_rem m k, by rw [drop_nz_iff, drop_rem], fun hk => ?_, ?_⟩
  · obtain ⟨j, rfl⟩ := Nat.exists_eq_add_of_le' hk
    exact drop_d m j
  · rintro rfl
    exact ⟨rfl, rfl, rfl, rfl⟩

/-- Settles O47: `rhe` is the nearest even integer and not above A's mantissa. -/
theorem brndRoundsHalfEven : Obligations.BrndRoundsHalfEven := by
  refine ⟨opcodeIs_of_decodeFields fun _ _ => rfl, fun _ => rfl,
    fun s hbad => answersBadInput_of_checkCanonA rfl hbad, fun s ha => ?_⟩
  have hq := (rhe_le (mant s.latch.a) (scl s.latch.a)).trans_lt (mant_lt _)
  exact ⟨_, _, answersOk_of_finishRounded rfl ha, toNat_pack_integer _ hq, hq, rhe_nearestEven _ _⟩

/-- Settles O48: the rule's digit test is `roundHalfUp_eq`'s division. -/
theorem roundRoundsHalfAwayFromZero : Obligations.RoundRoundsHalfAwayFromZero := by
  refine ⟨opcodeIs_of_decodeFields fun _ _ => rfl, fun _ => rfl,
    fun s hbad => answersBadInput_of_checkCanonA rfl hbad, fun s ha => ⟨_, answersOk_of_finishRounded rfl ha, ?_⟩⟩
  rw [toNat_pack_integer _ ((roundHalfUp_le _ _).trans_lt (mant_lt _)), roundHalfUp_eq]

/-- Settles O49: the magnitude with A's sign is the floor of A's value, above zero and below. -/
theorem floorIsTheLargestIntegerBelow : Obligations.FloorIsTheLargestIntegerBelow := by
  refine ⟨opcodeIs_of_decodeFields fun _ _ => rfl, fun _ => rfl,
    fun s hbad => answersBadInput_of_checkCanonA rfl hbad, fun s ha => ?_⟩
  have hq := (floorMagnitude_le (sgn s.latch.a) (mant s.latch.a) (scl s.latch.a)).trans_lt (mant_lt _)
  refine ⟨_, _, answersOk_of_finishRounded rfl ha, toNat_pack_integer _ hq, hq, ?_⟩
  rw [value_pack_integer _ hq, floor_value]

/-- Settles O50: the quotient register of the digit drop. -/
theorem truncDropsTheFraction : Obligations.TruncDropsTheFraction := by
  refine ⟨opcodeIs_of_decodeFields fun _ _ => rfl, fun _ => rfl,
    fun s hbad => answersBadInput_of_checkCanonA rfl hbad, fun s ha => ⟨_, answersOk_of_finishRounded rfl ha, ?_⟩⟩
  rw [toNat_pack_integer _ ((truncMagnitude_le _ _).trans_lt (mant_lt _)), truncMagnitude_eq]

/-- Settles O51: each magnitude is at most A's, and only FLOOR's depends on the sign. -/
theorem roundingCommonProperties : Obligations.RoundingCommonProperties := by
  refine fun s ha => ⟨fun i hi => ?_, fun hnonneg => ?_, fun i hi => ?_⟩
  · simp only [List.mem_cons, List.not_mem_nil, or_false] at hi
    obtain rfl | rfl | rfl | rfl := hi
    · exact exists_answersOk_of_finishRounded (f := rhe) rfl rhe_le (fun _ => rfl) ha
    · exact exists_answersOk_of_finishRounded (f := roundHalfUp) rfl roundHalfUp_le (fun _ => rfl) ha
    · exact exists_answersOk_of_finishRounded (f := floorMagnitude (sgn s.latch.a)) rfl (floorMagnitude_le _)
        (floorMagnitude_zero_scale _) ha
    · exact exists_answersOk_of_finishRounded (f := truncMagnitude) rfl truncMagnitude_le (fun _ => rfl) ha
  · have hfloor := answersOk_of_finishRounded (i := .floor false) rfl ha
    rw [floorMagnitude_eq_truncMagnitude hnonneg] at hfloor
    exact ⟨_, hfloor, answersOk_of_finishRounded rfl ha⟩
  · simp only [List.mem_cons, List.not_mem_nil, or_false] at hi
    obtain rfl | rfl | rfl := hi
    · exact answersOk_flipSign_of_finishRounded (fun _ => rfl) rhe_le ha
    · exact answersOk_flipSign_of_finishRounded (fun _ => rfl) roundHalfUp_le ha
    · exact answersOk_flipSign_of_finishRounded (fun _ => rfl) truncMagnitude_le ha

end Sys2Proof.Proofs
end

section
/-! The error paths (R180, R185, R187, R196): everything a command can complete with, said once, and the checks that
end a command with BAD_INPUT. -/

namespace Sys2Proof.Machine

open Sys2Proof.Claims

/-! ### What a command can complete with -/

/-- The commands that can end with BIG (R180, R196). -/
def EndsBig (i : Instr) : Prop := i = .add false ∨ i = .sub false ∨ i = .mul false

/-- The completions of command `i` from state `s`: one constructor for OK, for BAD_INPUT, and for each row of R196. -/
inductive Completion : Instr → State → State → Prop
  | ok {i : Instr} {s : State} (r x : Value) : Completion i s (finish .ok r x s)
  | badInput {i : Instr} {s : State} : Completion i s (raiseBadInput s)
  | big {i : Instr} {s : State} (hi : EndsBig i) : Completion i s (finishUnspecR .big s)
  | small {s : State} : Completion (.div false) s (finish .small 0 0 s)
  | divByZero {s : State} : Completion (.div false) s (finishUnspecR .divByZero s)
  | mdivByZero {s : State} : Completion .mdiv s (finishUnspecRX .divByZero s)

section
variable {i : Instr} {s k : State}

theorem checkCanonA_completion (h : Completion i s k) : Completion i s (checkCanonA s k) := by
  obtain hpass | hbad := checkCanonA_cases s k
  · rwa [hpass]
  · rw [hbad]
    exact .badInput

theorem checkCanonAB_completion (h : Completion i s k) : Completion i s (checkCanonAB s k) := by
  obtain hpass | hbad := checkCanonAB_cases s k
  · rwa [hpass]
  · rw [hbad]
    exact .badInput

/-- Behind the check of ND only the completions of the command with ND = 0 are left (R185). -/
theorem checkNd_completion {f : Bool → Instr} (nd : Bool) (h : Completion (f false) s k) :
    Completion (f nd) s (checkNd nd s k) := by
  cases nd
  · exact h
  · exact .badInput

theorem addCore_completion (hi : EndsBig i) (a b : Value) : Completion i s (addCore a b s) := by
  by_cases ha : mant a = 0
  · rw [addCore_of_left_zero s ha]
    exact .ok b 0
  by_cases hb : mant b = 0
  · rw [addCore_of_right_zero s ha hb]
    exact .ok a 0
  rw [addCore_of_ne_zero s ha hb]
  cases smadd a b with
  | none => exact .big hi
  | some r => exact .ok r 0

theorem mulCore_completion (a b : Value) : Completion (.mul false) s (mulCore a b s) := by
  by_cases hzero : mant a = 0 ∨ mant b = 0
  · rw [mulCore_of_zero s hzero]
    exact .ok 0 0
  rw [mulCore_of_ne_zero s hzero]
  split_ifs
  · exact .big (.inr (.inr rfl))
  · exact .ok _ 0
  · exact .ok _ 0

theorem divCore_completion (a b : Value) : Completion (.div false) s (divCore a b s) := by
  by_cases hb : mant b = 0
  · rw [divCore_of_zero_divisor s hb]
    exact .divByZero
  by_cases ha : mant a = 0
  · rw [divCore_of_zero_dividend s hb ha]
    exact .ok 0 0
  rw [divCore_of_ne_zero s hb ha]
  split_ifs
  · exact .small
  · exact .ok _ _

theorem finishRounded_completion {f : Bool → Instr} (nd : Bool) (m : Nat) :
    Completion (f nd) s (finishRounded nd m s) :=
  checkNd_completion nd (checkCanonA_completion (.ok _ 0))

end

/-- Every command answers a next state, which is one of its completions. -/
theorem exists_exec_completion (i : Instr) (s : State) : ∃ t, exec i s = .next t ∧ Completion i s t := by
  cases i with
  | zero | getsign | setsign | getscale | setscale | getbit | setbit | shl | shr | pack | iszero =>
    exact ⟨_, rfl, .ok _ _⟩
  | mcmp | madd | msub | mmul | mul10 | div10 => exact ⟨_, rfl, .ok _ _⟩
  | mdiv =>
    by_cases hzero : mant s.latch.b = 0
    · exact ⟨_, if_pos hzero, .mdivByZero⟩
    · exact ⟨_, if_neg hzero, .ok _ _⟩
  | cmpabs | norm | cmp | lt | le | gt | ge | eq | ne => exact ⟨_, rfl, checkCanonAB_completion (.ok _ _)⟩
  | add nd => exact ⟨_, rfl, checkNd_completion nd (checkCanonAB_completion (addCore_completion (.inl rfl) _ _))⟩
  | sub nd =>
    exact ⟨_, rfl, checkNd_completion nd (checkCanonAB_completion (addCore_completion (.inr (.inl rfl)) _ _))⟩
  | mul nd => exact ⟨_, rfl, checkNd_completion nd (checkCanonAB_completion (mulCore_completion _ _))⟩
  | div nd => exact ⟨_, rfl, checkNd_completion nd (checkCanonAB_completion (divCore_completion _ _))⟩
  | neg nd => exact ⟨_, rfl, checkNd_completion nd (.ok _ _)⟩
  | brnd nd | round nd | floor nd | trunc nd => exact ⟨_, rfl, finishRounded_completion nd _⟩

theorem completion_of_exec {i : Instr} {s t : State} (h : exec i s = .next t) : Completion i s t := by
  obtain ⟨t', hexec, hcompletion⟩ := exists_exec_completion i s
  obtain rfl : t' = t := by injection hexec.symm.trans h
  exact hcompletion

/-! ### The checks that end a command with BAD_INPUT -/

/-- R185: with ND = 1 the check ends the command, and with ND = 0 what is behind the check does. -/
theorem answersBadInput_of_checkNd {i : Instr} {s k : State} {nd : Bool} (hexec : exec i s = .next (checkNd nd s k))
    (hbad : nd = true ∨ k = raiseBadInput s) : AnswersBadInput i s := by
  obtain rfl | rfl := hbad
  · exact hexec
  · cases nd <;> exact hexec

end Sys2Proof.Machine

namespace Sys2Proof.Proofs

open Sys2Proof.Machine Sys2Proof.Claims

/-- Settles O54: the completions one by one; only R196's have a status but OK and BAD_INPUT. -/
theorem errorPathOutputs : Obligations.ErrorPathOutputs := by
  intro i s t hexec
  cases completion_of_exec hexec with
  | ok => exact ⟨nofun, nofun, nofun, nofun⟩
  | badInput => exact ⟨nofun, nofun, nofun, fun _ => ⟨rfl, rfl⟩⟩
  | big hi => exact ⟨fun _ => ⟨hi, rfl⟩, nofun, nofun, nofun⟩
  | small => exact ⟨nofun, fun _ => ⟨rfl, rfl, rfl⟩, nofun, nofun⟩
  | divByZero => exact ⟨nofun, nofun, fun _ => .inl ⟨rfl, rfl⟩, nofun⟩
  | mdivByZero => exact ⟨nofun, nofun, fun _ => .inr rfl, nofun⟩

/-- Settles O52: each command of the group begins with the check of ND, and the decoder drops ND for all others. -/
theorem nullDestinationIsBadInput : Obligations.NullDestinationIsBadInput := by
  refine ⟨fun s i hi => ?_, fun _ => decode_xor_nd⟩
  simp only [List.mem_cons, List.not_mem_nil, or_false] at hi
  obtain rfl | rfl | rfl | rfl | rfl | rfl | rfl | rfl | rfl := hi <;>
    exact answersBadInput_of_checkNd rfl (.inl rfl)

/-- Settles O53: each command checks the scales it reads, behind no check or behind that of ND, which has the same
outcome. -/
theorem nonCanonicalOperandIsBadInput : Obligations.NonCanonicalOperandIsBadInput := by
  refine ⟨fun s nd hbad i hi => ?_, fun s nd hbad i hi => ?_⟩
  · simp only [List.mem_cons, List.not_mem_nil, or_false] at hi
    obtain rfl | rfl | rfl | rfl | rfl | rfl | rfl | rfl | rfl | rfl | rfl | rfl | rfl := hi
    iterate 9
      · exact answersBadInput_of_checkCanonAB rfl hbad
    all_goals exact answersBadInput_of_checkNd rfl (.inr (checkCanonAB_of_not _ hbad))
  · simp only [List.mem_cons, List.not_mem_nil, or_false] at hi
    obtain rfl | rfl | rfl | rfl := hi <;> exact answersBadInput_of_checkNd rfl (.inr (checkCanonA_of_not _ hbad))

end Sys2Proof.Proofs
end

section
/-! The reset signal (R200, R201): what one step does with it, in any state, and what is due after it. -/

namespace Sys2Proof.Machine

theorem resetNext_of_script {s : State} {rest : List HostEvent} (hscript : s.script = .reset :: rest) :
    resetNext s = true := by
  simp [resetNext, hscript]

theorem takeReset_of_script {s : State} {rest : List HostEvent} (hscript : s.script = .reset :: rest) :
    takeReset s = resetBlock { s with script := rest } := by
  simp [takeReset, hscript]

/-- The reset signal comes before a completion, due or not (R201), and before a cycle of the host. -/
theorem step_of_reset {s : State} {rest : List HostEvent} (hscript : s.script = .reset :: rest) :
    step s = .next (resetBlock { s with script := rest }) := by
  have hreset : resetNext s = true := resetNext_of_script hscript
  rcases step_cases s with ⟨_, hstep⟩ | ⟨hnone, _⟩ | ⟨hnone, _⟩
  · rw [hstep, takeReset_of_script hscript]
  · simp [hreset] at hnone
  · simp [hreset] at hnone

theorem completionDue_of_idle {s : State} (hidle : s.busy = false) : completionDue s = false := by
  simp [completionDue, hidle]

end Sys2Proof.Machine

namespace Sys2Proof.Proofs

open Sys2Proof.Machine

/-- Settles O14: the step is the block's reset on the rest of the inputs, and a block that is not BUSY has no completion
due. -/
theorem resetSignalResetsAndAbandons : Obligations.ResetSignalResetsAndAbandons := by
  intro s rest hscript
  exact ⟨resetBlock { s with script := rest }, step_of_reset hscript, resetBlock_a _, resetBlock_b _, resetBlock_r _,
    resetBlock_x _, resetBlock_cmd _, resetBlock_st _, resetBlock_busy _, resetBlock_done _, resetBlock_script _,
    completionDue_of_idle (resetBlock_busy _)⟩

end Sys2Proof.Proofs
end

section
/-! Decoding and encoding as inverses (R66, R69, R70), and the written commands R71 allows: a word or a written command
is the operation code with V and ND where its command reads them. -/

namespace Sys2Proof

open Sys2Proof.Claims

/-! ### The fields of an encoded word -/

section
variable (opc : BitVec 6) (v nd : Bool)

/-- R23 and R70 lay the three fields out alike. -/
theorem commandWord_eq_cmdWord : commandWord opc v nd = Machine.cmdWord ⟨opc, v, nd⟩ := rfl

@[simp] theorem wordOpc_commandWord : wordOpc (commandWord opc v nd) = opc := by
  apply BitVec.eq_of_getLsbD_eq
  intro i hi
  simp [wordOpc, commandWord_eq_cmdWord, Machine.getLsbD_cmdWord, hi]

@[simp] theorem wordV_commandWord : wordV (commandWord opc v nd) = v := by
  rw [wordV, commandWord_eq_cmdWord, Machine.getLsbD_cmdWord]
  rfl

@[simp] theorem wordNd_commandWord : wordNd (commandWord opc v nd) = nd := by
  rw [wordNd, commandWord_eq_cmdWord, Machine.getLsbD_cmdWord]
  rfl

theorem decode_commandWord : decode (commandWord opc v nd) = decodeFields opc v nd := by
  rw [decode, wordOpc_commandWord, wordV_commandWord, wordNd_commandWord]

theorem toNat_commandWord : (commandWord opc v nd).toNat = nd.toNat * 2 ^ 31 + v.toNat * 2 ^ 6 + opc.toNat := by
  have hopc := opc.isLt
  have hv := Bool.toNat_le v
  have hnd := Bool.toNat_le nd
  rw [commandWord, BitVec.toNat_ofNat]
  omega

/-! ### The decoder's table and the written forms -/

/-- The written form of an operation code with V and ND given (R71): each stands only where its command reads it. -/
def writtenForm : Command where
  opc := opc
  nd := opcStatusGroup opc && nd
  v := if opcUsesV opc then some v else none

theorem opcAssigned_iff : opcAssigned opc = true ↔ ¬ unassignedCodes opc.toNat := by
  have hopc := opc.isLt
  simp only [opcAssigned, unassignedCodes, Bool.or_eq_true, Bool.and_eq_true, decide_eq_true_eq]
  omega

/-- The decoder's arms are the assigned codes (R66, R67). -/
theorem opcAssigned_iff_decodeFields : opcAssigned opc = true ↔ ∃ i, decodeFields opc v nd = .ok i := by
  rw [opcAssigned_iff, ← decodeFields_eq_error_iff opc v nd]
  unfold decodeFields
  split <;> simp

end

/-- Decoding the written form's fields gives the command back, arm by arm of the table (R66). -/
theorem decodeFields_written (i : Instr) :
    decodeFields i.written.opc (i.written.v.getD false) i.written.nd = .ok i := by
  cases i <;> rfl

theorem eq_ofNat_of_toNat_eq {opc : BitVec 6} {n : Nat} (h : opc.toNat = n) : opc = BitVec.ofNat 6 n := by
  rw [← h, BitVec.ofNat_toNat, BitVec.setWidth_eq]

/-- A decoded command's written form is made of the fields it was decoded from: each arm of the table is its row. -/
theorem written_of_decodeFields {opc : BitVec 6} {v nd : Bool} {i : Instr} (h : decodeFields opc v nd = .ok i) :
    i.written = writtenForm opc v nd := by
  unfold decodeFields at h
  split at h
  case h_37 => cases h
  all_goals
    rename_i hcode
    obtain rfl := eq_ofNat_of_toNat_eq hcode
    cases h
    rfl

/-- R71's conditions say that a written command is the written form of its own fields, with an assigned code. -/
theorem wellFormed_iff (c : Command) :
    c.wellFormed = true ↔ opcAssigned c.opc = true ∧ writtenForm c.opc (c.v.getD false) c.nd = c := by
  obtain ⟨opc, nd, v⟩ := c
  have hv : v.isSome = opcUsesV opc ↔ (if opcUsesV opc then some (v.getD false) else none) = v := by
    cases v <;> cases opcUsesV opc <;> simp
  have hnd : (!nd || opcStatusGroup opc) = true ↔ (opcStatusGroup opc && nd) = nd := by
    cases nd <;> simp
  simp only [Command.wellFormed, writtenForm, Bool.and_eq_true, beq_iff_eq, Command.mk.injEq, true_and, hv, hnd]
  tauto

/-! ### The bits a command reads (R69) -/

theorem readMask_fields (w : Word32) :
    wordOpc (readMask w) = BitVec.allOnes 6 ∧ wordV (readMask w) = opcUsesV (wordOpc w) ∧
      wordNd (readMask w) = opcStatusGroup (wordOpc w) ∧ readMask w &&& 0x8000007F#32 = readMask w := by
  rw [readMask]
  cases opcUsesV (wordOpc w) <;> cases opcStatusGroup (wordOpc w) <;> decide

/-- What R69 lets a command read of a word is a CMD word: the fields, V and ND 0 where they are not read. -/
theorem and_readMask (w : Word32) :
    w &&& readMask w =
      Machine.cmdWord ⟨wordOpc w, wordV w && opcUsesV (wordOpc w), wordNd w && opcStatusGroup (wordOpc w)⟩ := by
  obtain ⟨hopc, hv, hnd, hmask⟩ := readMask_fields w
  have hfields := Machine.cmdWord_wordFields (w &&& readMask w)
  rw [BitVec.and_assoc, hmask] at hfields
  rw [← hfields, ← hv, ← hnd, wordOpc, BitVec.extractLsb'_and, ← wordOpc, ← wordOpc, hopc, BitVec.and_allOnes, wordV,
    BitVec.getLsbD_and, wordNd, BitVec.getLsbD_and]
  rfl

theorem assemble_writtenForm (opc : BitVec 6) (v nd : Bool) :
    (writtenForm opc v nd).assemble = commandWord opc (v && opcUsesV opc) (nd && opcStatusGroup opc) := by
  simp only [Command.assemble, writtenForm]
  cases opcUsesV opc <;> simp [Bool.and_comm]

end Sys2Proof

namespace Sys2Proof.Proofs

open Sys2Proof.Machine

/-- Settles O2: the written form of a command decodes to it, and a word that decodes has that form's fields. -/
theorem decodeAndEncodeAgree : Obligations.DecodeAndEncodeAgree := by
  refine ⟨fun i _ => ?_, fun w i hdecode => ?_⟩
  · rw [encode, Command.assemble, decode_commandWord, decodeFields_written]
  · rw [encode, written_of_decodeFields hdecode, assemble_writtenForm, and_readMask]
    rfl

/-- Settles O4: both directions go through decoding the written command's own fields. -/
theorem writtenCommandsAreTheCommands : Obligations.WrittenCommandsAreTheCommands := by
  refine ⟨fun c => ⟨fun hwf => ?_, ?_⟩, fun i j heq => ?_, fun c => toNat_commandWord _ _ _⟩
  · obtain ⟨hassigned, hform⟩ := (wellFormed_iff c).mp hwf
    obtain ⟨i, hdecode⟩ := (opcAssigned_iff_decodeFields c.opc (c.v.getD false) c.nd).mp hassigned
    exact ⟨i, (written_of_decodeFields hdecode).trans hform⟩
  · rintro ⟨i, rfl⟩
    have hdecode := decodeFields_written i
    exact (wellFormed_iff _).mpr
      ⟨(opcAssigned_iff_decodeFields _ _ _).mpr ⟨i, hdecode⟩, (written_of_decodeFields hdecode).symm⟩
  · have hi := decodeFields_written i
    rw [heq, decodeFields_written j] at hi
    injection hi.symm

/-- Settles O1: the decoder and the encoder run on each word. -/
theorem sampleCommandWordsDecode : Obligations.SampleCommandWordsDecode := by
  unfold Obligations.SampleCommandWordsDecode
  decide

end Sys2Proof.Proofs
end

section
/-! The frame of a completion (R183), what one input of the host can change (R22, R26, R206, R207), and the protocol
invariant that both keep. -/

namespace Sys2Proof.Machine

open Sys2Proof.Claims

/-! ### Completions -/

theorem Completion.completesFrom {i : Instr} {s t : State} (h : Completion i s t) : CompletesFrom s t := by
  cases h with
  | ok | small => exact finish_completesFrom _ _ _ s
  | badInput => exact raiseBadInput_completesFrom s
  | big | divByZero => exact finishUnspecR_completesFrom _ s
  | mdivByZero => exact finishUnspecRX_completesFrom _ s

/-- Of the window a completion writes the words of R and X and STATUS only. -/
theorem CompletesFrom.memRead_eq {s t : State} (h : CompletesFrom s t) {off : Nat}
    (hoff : off < 0x20 ∨ (0x40 ≤ off ∧ off ≠ 0x44)) : memRead off t = memRead off s := by
  rw [h]
  obtain hoperand | ⟨hcmd, hstatus⟩ := hoff
  · simp only [memRead, hoperand, if_true]
  · simp only [memRead, hstatus, if_false, show ¬ off < 0x30 by omega, show ¬ off < 0x40 by omega,
      show ¬ off < 0x20 by omega, show ¬ off < 0x10 by omega]

theorem completesFrom_of_complete {s t : State} (h : complete s = .next t) : CompletesFrom s t := by
  obtain ⟨i, -, hexec⟩ | ⟨-, hbad⟩ := complete_cases s
  · exact (completion_of_exec (hexec.symm.trans h)).completesFrom
  · obtain rfl : raiseBadInput s = t := by injection hbad.symm.trans h
    exact raiseBadInput_completesFrom s

theorem complete_of_decodeFields {s : State} {i : Instr}
    (h : decodeFields s.latch.opc s.latch.v s.latch.nd = .ok i) : complete s = exec i s := by
  rw [complete, h]

theorem decode_of_decodeTableWord {nbits w : Nat} {i : Instr} (h : decodeTableWord nbits w = some i) :
    decode (BitVec.ofNat 32 (w % 2 ^ nbits)) = .ok i := by
  unfold decodeTableWord at h
  split at h
  · next hdecode => rwa [← Option.some.inj h]
  · cases h

/-! ### The step of a cycle, by its input -/

theorem step_eq_hostCycle {s : State} (hreset : resetNext s = false) (hdue : completionDue s = false) :
    step s = hostCycle s := by
  simp [step, hreset, hdue]

theorem step_of_no_input {s : State} (hscript : s.script = []) (hdue : completionDue s = false) :
    step s = .next (cyclePassed s []) := by
  have hreset : resetNext s = false := by simp [resetNext, hscript]
  obtain ⟨-, htick⟩ | ⟨e, rest, hcons, -⟩ := hostCycle_cases s
  · rw [step_eq_hostCycle hreset hdue, htick, ← hscript]
    rfl
  · cases hscript.symm.trans hcons

/-- R73: a poll answers STATUS, and stays while a command runs. -/
theorem step_poll {s : State} {rest : List HostEvent} (hscript : s.script = .wait :: rest)
    (hdue : completionDue s = false) :
    step s = .next { cyclePassed s (if s.busy then .wait :: rest else rest) with
      replies := .data (statusWord s) :: s.replies } := by
  rw [step_eq_hostAct hscript nofun hdue, hostAct, pollStatus_eq]
  rfl

/-- R195: only a running command's time passes. -/
theorem cyclePassed_of_idle {s : State} (hidle : s.busy = false) (rest : List HostEvent) :
    cyclePassed s rest = { s with script := rest } := by
  simp [cyclePassed, hidle]

/-! ### What one input of the host can change -/

/-- What the input `e`, not the reset signal, can make of the block: nothing but what the host gets back and the poll
that stays, or a word write to A or to B, or the acceptance of a CMD write (R43, R206). -/
inductive HostEffect : HostEvent → State → State → Prop
  | keeps {e : HostEvent} {s : State} (replies : List BusReply) {script : List HostEvent}
      (hscript : script = s.script ∨ script = .wait :: s.script) :
      HostEffect e s { s with replies := replies, script := script }
  | writesA {s : State} {off : Nat} (v : Word32) (hoff : off < 0x10) :
      HostEffect (.write (Config.base + off) 4 v) s { s with a := setRegWord s.a (off / 4) v }
  | writesB {s : State} {off : Nat} (v : Word32) (hlo : 0x10 ≤ off) (hhi : off < 0x20) :
      HostEffect (.write (Config.base + off) 4 v) s { s with b := setRegWord s.b ((off - 0x10) / 4) v }
  | accepts {s : State} (v : Word32) (hidle : s.busy = false) :
      HostEffect (.write (Config.base + 0x40) 4 v) s (accept v s)

theorem HostEffect.refl (e : HostEvent) (s : State) : HostEffect e s s := .keeps s.replies (.inl rfl)

theorem HostEffect.reply (e : HostEvent) (m : BusReply) (s : State) : HostEffect e s (reply m s) :=
  .keeps (m :: s.replies) (.inl rfl)

theorem memWrite_effect (off : Nat) (v : Word32) (s : State) :
    HostEffect (.write (Config.base + off) 4 v) s (memWrite off v s) := by
  obtain ha | hb := Nat.lt_or_ge off 0x10
  · rw [memWrite_of_a v s ha]
    exact .writesA v ha
  obtain hb' | hafter := Nat.lt_or_ge off 0x20
  · rw [memWrite_of_b v s hb hb']
    exact .writesB v hb hb'
  by_cases hcmd : off = 0x40
  · subst hcmd
    cases hbusy : s.busy with
    | false =>
      rw [memWrite_cmd_of_idle v hbusy]
      exact .accepts v hbusy
    | true =>
      rw [memWrite_cmd_of_busy v hbusy]
      exact .refl _ s
  · rw [memWrite_of_readOnly v s hafter hcmd]
    exact .refl _ s

theorem busWrite_effect {addr width : Nat} {v : Word32} {s t : State} (h : busWrite addr width v s = .next t) :
    HostEffect (.write addr width v) s t := by
  unfold busWrite at h
  split at h
  · cases h
  next off hoff =>
    obtain rfl := eq_base_add_of_windowOffset hoff
    split_ifs at h with hok
    · obtain ⟨rfl, -⟩ : width = 4 ∧ off % 4 = 0 := by simpa [accessOk] using hok
      cases h
      exact memWrite_effect off v s
    · cases h
      exact .reply _ _ s

/-- Everything an input can do to the block, the reset signal left out. -/
theorem hostAct_effect {e : HostEvent} {s t : State} (he : e ≠ .reset) (h : hostAct e s = .next t) :
    HostEffect e s t := by
  cases e with
  | idle =>
    cases h
    exact .refl _ s
  | read addr width =>
    obtain hfault | ⟨m, hreply⟩ := busRead_cases addr width s
    · cases hfault.symm.trans h
    · cases hreply.symm.trans h
      exact .reply _ m s
  | write addr width v => exact busWrite_effect h
  | wait =>
    cases h
    rw [pollStatus_eq]
    refine .keeps _ ?_
    split_ifs
    · exact .inr rfl
    · exact .inl rfl
  | reset => exact absurd rfl he

/-- A step that is no reset and no completion lets a cycle pass and performs the next input, if there is one. -/
theorem step_effect {s t : State} (hreset : resetNext s = false) (hdue : completionDue s = false)
    (h : step s = .next t) :
    t = tick s ∨ ∃ e rest, s.script = e :: rest ∧ e ≠ .reset ∧ HostEffect e (cyclePassed s rest) t := by
  rw [step_eq_hostCycle hreset hdue] at h
  obtain ⟨-, htick⟩ | ⟨e, rest, hscript, hact⟩ := hostCycle_cases s
  · cases htick.symm.trans h
    exact .inl rfl
  · have he : e ≠ .reset := by simpa [resetNext, hscript] using hreset
    exact .inr ⟨e, rest, hscript, he, hostAct_effect he (hact.symm.trans h)⟩

section
variable {e : HostEvent} {s t : State}

/-- R26, R207: no input writes R, X or ST. -/
theorem HostEffect.results (h : HostEffect e s t) : t.r = s.r ∧ t.x = s.x ∧ t.st = s.st ∧ t.draws = s.draws := by
  cases h <;> exact ⟨rfl, rfl, rfl, rfl⟩

theorem HostEffect.operand_a (h : HostEffect e s t) :
    t.a = s.a ∨ ∃ off v, off < 0x10 ∧ e = .write (Config.base + off) 4 v := by
  cases h with
  | writesA v hoff => exact .inr ⟨_, v, hoff, rfl⟩
  | keeps | writesB | accepts => exact .inl rfl

theorem HostEffect.operand_b (h : HostEffect e s t) :
    t.b = s.b ∨ ∃ off v, 0x10 ≤ off ∧ off < 0x20 ∧ e = .write (Config.base + off) 4 v := by
  cases h with
  | writesB v hlo hhi => exact .inr ⟨_, v, hlo, hhi, rfl⟩
  | keeps | writesA | accepts => exact .inl rfl

/-- R206: CMD, the latch, BUSY and DONE are kept, or a CMD write is accepted while no command runs. -/
theorem HostEffect.control (h : HostEffect e s t) :
    (t.cmd = s.cmd ∧ t.latch = s.latch ∧ t.busy = s.busy ∧ t.done = s.done) ∨
      ∃ v, s.busy = false ∧ e = .write (Config.base + 0x40) 4 v ∧ t.cmd = ⟨wordOpc v, wordV v, wordNd v⟩ ∧
        t.latch = ⟨wordOpc v, wordV v, wordNd v, s.a, s.b⟩ ∧ t.busy = true ∧ t.done = false := by
  cases h with
  | accepts v hidle => exact .inr ⟨v, hidle, rfl, rfl, rfl, rfl, rfl⟩
  | keeps | writesA | writesB => exact .inl ⟨rfl, rfl, rfl, rfl⟩

end

/-! ### The protocol invariant (R23, R24, R30) -/

theorem protocolInv_of_reset {s : State} (hcmd : s.cmd = ⟨0, false, false⟩) (hr : s.r = 0) (hx : s.x = 0)
    (hst : s.st = .ok) (hbusy : s.busy = false) : ProtocolInv s :=
  ⟨by simp [hbusy], fun _ _ => ⟨hcmd, hr, hx, hst⟩, by simp [hbusy]⟩

theorem protocolInv_of_completesFrom {s t : State} (h : CompletesFrom s t) : ProtocolInv t := by
  have hbusy : t.busy = false := by rw [h]
  have hdone : t.done = true := by rw [h]
  exact ⟨by simp [hbusy], by simp [hdone], by simp [hbusy]⟩

/-- The invariant reads R, X, ST and the control fields only. -/
theorem HostEffect.protocolInv {e : HostEvent} {s t : State} (h : HostEffect e s t) (hinv : ProtocolInv s) :
    ProtocolInv t := by
  obtain ⟨hr, hx, hst, -⟩ := h.results
  obtain ⟨hcmd, hlatch, hbusy, hdone⟩ | ⟨v, -, -, hcmd, hlatch, hbusy, hdone⟩ := h.control
  · rwa [ProtocolInv, hr, hx, hst, hcmd, hlatch, hbusy, hdone]
  · exact ⟨by simp [hdone], by simp [hbusy], fun _ => by simp [hcmd, hlatch]⟩

theorem step_effect_protocolInv {s t : State} (hreset : resetNext s = false) (hdue : completionDue s = false)
    (h : step s = .next t) (hinv : ProtocolInv s) : ProtocolInv t := by
  obtain rfl | ⟨e, rest, -, -, heffect⟩ := step_effect hreset hdue h
  · exact hinv
  · exact heffect.protocolInv hinv

/-! ### The word placed by `withFetchWord` (log 10) -/

theorem resetNext_placeCommand (w : Word32) (s : State) : resetNext (placeCommand w s) = false := by
  have hhead := List.head?_dropWhile_not (fun e => e == HostEvent.reset) s.script
  rw [resetNext, placeCommand]
  cases hnext : (s.script.dropWhile fun e => e == HostEvent.reset).head? with
  | none => rfl
  | some e => simpa [hnext] using hhead

theorem step_placeCommand (w : Word32) (s : State) {i : Instr} (h : decode w = .ok i) :
    step (placeCommand w s) = exec i (placeCommand w s) := by
  rw [step_eq_complete rfl (resetNext_placeCommand w s)]
  exact complete_of_decodeFields h

end Sys2Proof.Machine

namespace Sys2Proof.Proofs

open Sys2Proof.Machine Sys2Proof.Claims

/-- Settles O18: each completion is a `CompletesFrom`; R196's rows are the only ones that draw. -/
theorem commandFrame : Obligations.CommandFrame := by
  intro i s
  obtain ⟨t, hexec, hcompletion⟩ := exists_exec_completion i s
  refine ⟨t, hexec, hcompletion.completesFrom, fun _ => hcompletion.completesFrom.memRead_eq, ?_⟩
  cases hcompletion with
  | ok => exact ⟨nofun, fun _ _ => rfl⟩
  | badInput => exact ⟨fun _ => ⟨rfl, rfl⟩, fun _ _ => rfl⟩
  | big => exact ⟨nofun, fun hbig => absurd rfl hbig⟩
  | small => exact ⟨nofun, fun _ _ => rfl⟩
  | divByZero | mdivByZero => exact ⟨nofun, fun _ hdiv => absurd rfl hdiv⟩

/-- Settles O16: both flags are 0 and the registers at their reset values. -/
theorem protocolInvAtReset : Obligations.ProtocolInvAtReset :=
  protocolInv_of_reset rfl rfl rfl rfl rfl

/-- Settles O17: a reset and a completion establish the invariant, and every input of the host keeps it. -/
theorem stepKeepsProtocolInv : Obligations.StepKeepsProtocolInv := by
  intro s t hinv hstep
  obtain ⟨-, htake⟩ | ⟨-, -, hcomplete⟩ | ⟨hreset, hdue, -⟩ := step_cases s
  · cases htake.symm.trans hstep
    exact protocolInv_of_reset rfl rfl rfl rfl rfl
  · exact protocolInv_of_completesFrom (completesFrom_of_complete (hcomplete.symm.trans hstep))
  · exact step_effect_protocolInv hreset hdue hstep hinv

/-- Settles O13: the decoded command is what `complete` runs, `step_eq_hostAct` gives the step of each input, and
`HostEffect` what such a step leaves as it was. -/
theorem stepRunsTheDecodedCommand : Obligations.StepRunsTheDecodedCommand := by
  refine ⟨fun s i hreset hdue hdecode => ?_, fun s w i hdecode => ?_, fun s e rest hscript hdue => ⟨?_, ?_, ?_, ?_⟩,
    fun s hscript hdue => ?_, fun s t hreset hdue hstep => ?_⟩
  · rw [step_eq_complete hdue hreset, complete_of_decodeFields hdecode]
  · exact step_placeCommand _ s (decode_of_decodeTableWord hdecode)
  · rintro addr width rfl
    exact step_read hscript hdue
  · rintro addr width v rfl
    exact step_write hscript hdue
  · rintro rfl
    exact step_eq_hostAct hscript nofun hdue
  · rintro rfl
    exact step_poll hscript hdue
  · have hstep := step_of_no_input hscript hdue
    refine ⟨hstep, fun hidle => ?_⟩
    rw [hstep, cyclePassed_of_idle hidle, ← hscript]
  · obtain rfl | ⟨e, rest, hscript, -, heffect⟩ := step_effect hreset hdue hstep
    · exact ⟨rfl, rfl, rfl, rfl, .inl rfl, .inl rfl, .inl ⟨rfl, rfl, rfl, rfl⟩⟩
    · obtain ⟨hr, hx, hst, hdraws⟩ := heffect.results
      simp only [hscript, List.head?_cons, Option.some.injEq]
      exact ⟨hr, hx, hst, hdraws, heffect.operand_a, heffect.operand_b, heffect.control⟩

end Sys2Proof.Proofs
end

section
/-! The bits of the STATUS word (R24, R25), the interchange image (R46), and accesses outside the register window
(log 8). -/

namespace Sys2Proof.Machine

/-! ### The STATUS word -/

/-- R24's layout of the STATUS word, as a sum. -/
theorem toNat_statusWord (s : State) :
    (statusWord s).toNat = s.done.toNat * 2 ^ 9 + s.busy.toNat * 2 ^ 8 + (statusCode s.st).toNat := by
  have hst := (statusCode s.st).isLt
  have hbusy := Bool.toNat_le s.busy
  have hdone := Bool.toNat_le s.done
  rw [statusWord, BitVec.toNat_ofNat]
  omega

/-- A slice of the STATUS word is that digit of the sum. -/
theorem toNat_extractLsb'_statusWord (s : State) (i k : Nat) :
    ((statusWord s).extractLsb' i k).toNat =
      (s.done.toNat * 2 ^ 9 + s.busy.toNat * 2 ^ 8 + (statusCode s.st).toNat) / 2 ^ i % 2 ^ k := by
  rw [BitVec.extractLsb'_toNat, toNat_statusWord, Nat.shiftRight_eq_div_pow]

theorem toNat_getLsbD (w : Word32) (i : Nat) : (w.getLsbD i).toNat = w.toNat / 2 ^ i % 2 := by
  rw [BitVec.getLsbD, Nat.toNat_testBit]

/-! ### The interchange image -/

/-- The first `n` bytes of a word, as digits in base 256, are its number modulo `256^n`. -/
theorem ofDigits_bytes (w : Value) (n : Nat) :
    Nat.ofDigits 256 ((List.range n).map fun k => (w.extractLsb' (8 * k) 8).toNat) = w.toNat % 256 ^ n := by
  induction n with
  | zero => simp [Nat.mod_one]
  | succ n ih =>
    have hbyte : (w.extractLsb' (8 * n) 8).toNat = w.toNat / 256 ^ n % 256 := by
      rw [BitVec.extractLsb'_toNat, Nat.shiftRight_eq_div_pow, pow_mul]
      rfl
    rw [List.range_succ, List.map_append, Nat.ofDigits_append, ih, Nat.mod_pow_succ, List.map_singleton, hbyte,
      Nat.ofDigits_singleton, List.length_map, List.length_range]

theorem ofImage_image (w : Value) : ofImage (image w) = w := by
  have hsum := ofDigits_bytes w 16
  rw [Nat.ofDigits_eq_foldr, List.foldr_map, Nat.mod_eq_of_lt (b := 256 ^ 16) w.isLt] at hsum
  rw [ofImage, image, List.foldr_map]
  exact (congrArg (BitVec.ofNat 128) hsum).trans (by rw [BitVec.ofNat_toNat, BitVec.setWidth_eq])

theorem getLsbD_image (w : Value) {k j : Nat} (hk : k < 16) (hj : j < 8) :
    ((image w).getD k 0).getLsbD j = w.getLsbD (8 * k + j) := by
  simp [image, hk, hj]

/-! ### Outside the window -/

theorem windowOffset_of_outside {addr : Nat} (h : addr < Config.base ∨ Config.base + 0x100 ≤ addr) :
    windowOffset addr = none := by
  rw [windowOffset, if_neg (by rw [Config.windowBytes]; omega)]

section
variable {addr : Nat} (h : windowOffset addr = none) (width : Nat) (s : State)
include h

theorem busRead_outside : busRead addr width s = .fault .outsideWindow := by
  simp only [busRead, h]

theorem busWrite_outside (v : Word32) : busWrite addr width v s = .fault .outsideWindow := by
  simp only [busWrite, h]

end

end Sys2Proof.Machine

namespace Sys2Proof.Proofs

open Sys2Proof.Machine

/-- Settles O11: the fields of R24's layout, and the codes are R25's table. -/
theorem statusWordLayout : Obligations.StatusWordLayout := by
  refine ⟨fun s => ?_, rfl, rfl, rfl, rfl, rfl⟩
  have hst := (statusCode s.st).isLt
  have hbusy := Bool.toNat_le s.busy
  have hdone := Bool.toNat_le s.done
  refine ⟨?_, ?_, ?_, ?_, ?_⟩
  · apply BitVec.eq_of_toNat_eq
    rw [toNat_extractLsb'_statusWord]
    omega
  · apply BitVec.eq_of_toNat_eq
    rw [toNat_extractLsb'_statusWord, BitVec.toNat_zero]
    omega
  · apply bool_eq_of_toNat
    rw [toNat_getLsbD, toNat_statusWord]
    omega
  · apply bool_eq_of_toNat
    rw [toNat_getLsbD, toNat_statusWord]
    omega
  · apply BitVec.eq_of_toNat_eq
    rw [toNat_extractLsb'_statusWord, BitVec.toNat_zero]
    omega

/-- Settles O6: the image is the word's digits in base 256. -/
theorem interchangeImageRoundTrip : Obligations.InterchangeImageRoundTrip := fun w =>
  ⟨by simp [image], ofImage_image w, fun _ _ => getLsbD_image w⟩

/-- Settles O10: such an address has no window offset. -/
theorem accessOutsideTheWindowFaults : Obligations.AccessOutsideTheWindowFaults := by
  intro s addr width v houtside
  have hnone := windowOffset_of_outside houtside
  refine ⟨busRead_outside hnone width s, busWrite_outside hnone width s v, ?_⟩
  rintro rest (hread | hwrite) hdue
  · rw [step_read hread hdue, busRead_outside hnone]
  · rw [step_write hwrite hdue, busWrite_outside hnone]

end Sys2Proof.Proofs
end

section
/-! The restoring divider (R104): its alignment loop and its test-and-subtract loop, for any number of shifts. -/

namespace Sys2Proof.Machine

/-- The alignment loop shifts until the divisor exceeds the dividend, or the fuel is used up; a shift starts from a
divisor that does not exceed it, so the last one at most doubles the dividend. -/
theorem divAlign_shifts (n fuel dd mask : Nat) :
    ∃ k ≤ fuel, divAlign n fuel dd mask = (dd * 2 ^ k, mask * 2 ^ k) ∧ (n < dd * 2 ^ k ∨ k = fuel) ∧
      (k = 0 ∨ dd * 2 ^ k ≤ 2 * n) := by
  induction fuel generalizing dd mask with
  | zero => exact ⟨0, le_rfl, by simp [divAlign], .inr rfl, .inl rfl⟩
  | succ fuel ih =>
    rw [divAlign]
    split_ifs with hle
    · obtain ⟨k, hk, hshifts, hend, hdouble⟩ := ih (dd * 2) (mask * 2)
      have hdd : dd * 2 * 2 ^ k = dd * 2 ^ (k + 1) := by ring
      have hmask : mask * 2 * 2 ^ k = mask * 2 ^ (k + 1) := by ring
      rw [hdd] at hend hdouble
      refine ⟨k + 1, by omega, by rw [hshifts, hdd, hmask], by omega, .inr ?_⟩
      obtain rfl | hdouble := hdouble
      · omega
      · exact hdouble
    · exact ⟨0, fuel.succ.zero_le, by simp, .inl (by omega), .inl rfl⟩

/-- The test-and-subtract loop on a divisor shifted `k` times finds the quotient's `k` bits, highest first. -/
theorem divTest_shifted {d k fuel : Nat} (q : Nat) {r : Nat} (hk : k ≤ fuel) (hr : r < d * 2 ^ k) :
    divTest fuel (d * 2 ^ k) (2 ^ k) q r = (q + r / d, r % d) := by
  induction k generalizing fuel q r with
  | zero =>
    rw [pow_zero, mul_one] at hr
    rw [Nat.div_eq_of_lt hr, Nat.mod_eq_of_lt hr]
    cases fuel <;> rfl
  | succ k ih =>
    obtain ⟨fuel, rfl⟩ := Nat.exists_eq_add_of_le' (Nat.one_le_of_lt hk)
    have hdouble : d * 2 ^ (k + 1) = 2 * (d * 2 ^ k) := by ring
    have hhalf : d * 2 ^ (k + 1) / 2 = d * 2 ^ k := by omega
    have hmask : 2 ^ (k + 1) / 2 = 2 ^ k := by rw [pow_succ, Nat.mul_div_cancel _ two_pos]
    rw [divTest, if_pos (Nat.one_lt_two_pow k.succ_ne_zero), hhalf, hmask]
    split_ifs with hbit
    · obtain ⟨r, rfl⟩ := Nat.exists_eq_add_of_le hbit
      have hd : 0 < d := Nat.pos_of_mul_pos_right (Nat.zero_lt_of_lt hr)
      rw [Nat.add_sub_cancel_left, ih _ (by omega) (by omega), Nat.mul_add_div hd, Nat.mul_add_mod, add_assoc]
    · exact ih q (by omega) (by omega)

end Sys2Proof.Machine

namespace Sys2Proof.Proofs

open Sys2Proof.Machine

/-- Settles O59: 96 shifts lift a divisor other than 0 above the dividend, and the tests undo them one by one. -/
theorem restoringDividerDivides : Obligations.RestoringDividerDivides := by
  intro n d hn hpos hd
  obtain ⟨k, hk, hshifts, hend, hdouble⟩ := divAlign_shifts n 96 d 1
  have habove : n < d * 2 ^ k := by
    obtain hlt | rfl := hend
    · exact hlt
    · exact hn.trans_le (Nat.le_mul_of_pos_left _ hpos)
  refine ⟨?_, Nat.div_add_mod' n d, Nat.mod_lt n hpos, ?_⟩
  · rw [restoringDivide, hshifts, one_mul, divTest_shifted 0 hk habove, zero_add]
    rfl
  · rw [hshifts]
    obtain rfl | hdouble := hdouble <;> omega

end Sys2Proof.Proofs
end

section
/-! Two runs of one command side by side: on operands that a relation connects, each command passes the same checks and
writes connected results. Equality gives that results depend on the latch alone (R22, R30); agreement up to reserved
bits gives R63. -/

namespace Sys2Proof.Machine

open Sys2Proof.Claims

/-! ### Relations between operands -/

/-- A relation that is finer than agreement in mantissa, sign and scale (R63), and that R61's field updates keep. -/
structure OperandRel (ρ : Value → Value → Prop) : Prop where
  refl (w : Value) : ρ w w
  fields {v w : Value} : ρ v w → SameFields v w
  withSign {v w : Value} (s : Bool) : ρ v w → ρ (withSign v s) (withSign w s)
  withScale {v w : Value} (e : Nat) : ρ v w → ρ (withScale v e) (withScale w e)
  withMant {v w : Value} (m : Nat) : ρ v w → ρ (withMant v m) (withMant w m)

theorem operandRel_eq : OperandRel Eq where
  refl _ := rfl
  fields := by rintro v w rfl; exact ⟨rfl, rfl, rfl⟩
  withSign _ := congrArg (Machine.withSign · _)
  withScale _ := congrArg (Machine.withScale · _)
  withMant _ := congrArg (Machine.withMant · _)

theorem operandRel_sameFields : OperandRel SameFields where
  refl _ := ⟨rfl, rfl, rfl⟩
  fields := id
  withSign _ := by simp +contextual [SameFields]
  withScale _ := by simp +contextual [SameFields]
  withMant _ := by simp +contextual [SameFields]

/-! ### What depends on the mantissa alone -/

section
variable {v w : Value}

theorem getLsbD_eq_of_mant_eq (h : mant v = mant w) {i : Nat} (hi : i < 96) : v.getLsbD i = w.getLsbD i := by
  simpa [testBit_mant, hi] using congrArg (Nat.testBit · i) h

theorem int32_eq_of_mant_eq (h : mant v = mant w) : int32 v = int32 w := by
  refine congrArg BitVec.toInt (BitVec.eq_of_getLsbD_eq fun i hi => ?_)
  simp [hi, getLsbD_eq_of_mant_eq h (show i < 96 by omega)]

theorem mantissaBit_eq_of_mant_eq (h : mant v = mant w) (n : Int) : mantissaBit v n = mantissaBit w n := by
  by_cases hn : n < 0 ∨ 95 < n
  · rw [mantissaBit_of_outside v hn, mantissaBit_of_outside w hn]
  · rw [mantissaBit, mantissaBit, getLsbD_eq_of_mant_eq h (by omega)]

theorem mant_replaceBit_congr (h : mant v = mant w) (n : Nat) (bit : Bool) :
    mant (replaceBit v n bit) = mant (replaceBit w n bit) := by
  apply Nat.eq_of_testBit_eq
  intro i
  by_cases hi : i < 96
  · rw [testBit_mant, testBit_mant, getLsbD_replaceBit v n bit (by omega), getLsbD_replaceBit w n bit (by omega),
      getLsbD_eq_of_mant_eq h hi]
  · simp [testBit_mant, hi]

end

/-- Replacing a mantissa bit is a mantissa update (R87). -/
theorem replaceBit_eq_withMant (w : Value) {n : Nat} (bit : Bool) (hn : n < 96) :
    replaceBit w n bit = withMant w (mant (replaceBit w n bit)) := by
  apply BitVec.eq_of_getLsbD_eq
  intro i hi
  rw [getLsbD_withMant, testBit_mant]
  by_cases hmant : i < 96
  · simp [hmant]
  · rw [if_neg hmant, getLsbD_replaceBit w n bit hi, if_neg (by omega)]

/-! ### Connected operands give connected intermediate results -/

section
variable {ρ : Value → Value → Prop} (hρ : OperandRel ρ) {a a' b b' v w : Value}
include hρ

theorem OperandRel.of_eq (h : v = w) : ρ v w := h ▸ hρ.refl v

theorem OperandRel.flipSign (h : ρ v w) : ρ (flipSign v) (flipSign w) := by
  rw [Machine.flipSign, Machine.flipSign, (hρ.fields h).2.1]
  exact hρ.withSign _ h

theorem OperandRel.setMantissaBit (n : Int) (bit : Bool) (h : ρ v w) :
    ρ (setMantissaBit v n bit) (setMantissaBit w n bit) := by
  rw [Machine.setMantissaBit, Machine.setMantissaBit]
  split_ifs with hn
  · have hlt : n.toNat < 96 := by rw [inMantissa_iff] at hn; omega
    rw [replaceBit_eq_withMant v bit hlt, replaceBit_eq_withMant w bit hlt, mant_replaceBit_congr (hρ.fields h).1]
    exact hρ.withMant _ h
  · exact h

theorem OperandRel.raiseScaleBy (k : Nat) (h : ρ v w) : ρ (raiseScaleBy k v) (raiseScaleBy k w) := by
  induction k generalizing v w with
  | zero => exact h
  | succ k ih =>
    obtain ⟨hmant, -, hscl⟩ := hρ.fields h
    obtain hfits | hover := Nat.lt_or_ge (mant v * 10) (2 ^ 96)
    · rw [raiseScaleBy_succ_of_fits k hfits, raiseScaleBy_succ_of_fits k (hmant ▸ hfits), hmant, hscl]
      exact ih (hρ.withScale _ (hρ.withMant _ h))
    · rwa [raiseScaleBy_of_overflow _ hover, raiseScaleBy_of_overflow _ (hmant ▸ hover)]

theorem OperandRel.raiseScale (t : Nat) (h : ρ v w) : ρ (raiseScale v t) (raiseScale w t) := by
  rw [Machine.raiseScale, Machine.raiseScale, (hρ.fields h).2.2]
  exact hρ.raiseScaleBy _ h

theorem OperandRel.normalize (ha : ρ a a') (hb : ρ b b') :
    ρ (normalize a b).1 (normalize a' b').1 ∧ ρ (normalize a b).2 (normalize a' b').2 := by
  rw [normalize_eq_raiseScale, normalize_eq_raiseScale, (hρ.fields ha).2.2, (hρ.fields hb).2.2]
  exact ⟨hρ.raiseScale _ ha, hρ.raiseScale _ hb⟩

theorem OperandRel.cmpabs_eq (ha : ρ a a') (hb : ρ b b') : cmpabs a b = cmpabs a' b' := by
  obtain ⟨hfst, hsnd⟩ := hρ.normalize ha hb
  rw [cmpabs_eq_mcmp, cmpabs_eq_mcmp, (hρ.fields hfst).1, (hρ.fields hsnd).1]

theorem OperandRel.scmp_eq (ha : ρ a a') (hb : ρ b b') : scmp a b = scmp a' b' := by
  obtain ⟨hma, hsa, -⟩ := hρ.fields ha
  obtain ⟨hmb, hsb, -⟩ := hρ.fields hb
  rw [scmp, scmp, isZero, isZero, isZero, isZero, hma, hsa, hmb, hsb, hρ.cmpabs_eq ha hb]

theorem OperandRel.smadd_eq (ha : ρ a a') (hb : ρ b b') : smadd a b = smadd a' b' := by
  obtain ⟨hfst, hsnd⟩ := hρ.normalize ha hb
  obtain ⟨hm₁, -, he₁⟩ := hρ.fields hfst
  obtain ⟨hm₂, -, -⟩ := hρ.fields hsnd
  simp only [smadd, (hρ.fields ha).2.1, (hρ.fields hb).2.1, hm₁, hm₂, he₁]

end

/-! ### Completions of two states side by side -/

/-- The two states are completed alike, and not with BAD_INPUT: with connected results, or with the same draws. -/
inductive OwnPart (ρ : Value → Value → Prop) (s s' : State) : State → State → Prop
  | ok {r r' x x' : Value} (hr : ρ r r') (hx : ρ x x') : OwnPart ρ s s' (finish .ok r x s) (finish .ok r' x' s')
  | small : OwnPart ρ s s' (finish .small 0 0 s) (finish .small 0 0 s')
  | big : OwnPart ρ s s' (finishUnspecR .big s) (finishUnspecR .big s')
  | divByZero : OwnPart ρ s s' (finishUnspecR .divByZero s) (finishUnspecR .divByZero s')
  | mdivByZero : OwnPart ρ s s' (finishUnspecRX .divByZero s) (finishUnspecRX .divByZero s')

section
variable {ρ : Value → Value → Prop} (hρ : OperandRel ρ) {s s' : State} {a a' b b' : Value} (ha : ρ a a') (hb : ρ b b')
include hρ ha hb

theorem addCore_ownPart : OwnPart ρ s s' (addCore a b s) (addCore a' b' s') := by
  have hma := (hρ.fields ha).1
  have hmb := (hρ.fields hb).1
  by_cases hza : mant a = 0
  · rw [addCore_of_left_zero s hza, addCore_of_left_zero s' (hma ▸ hza)]
    exact .ok hb (hρ.refl 0)
  by_cases hzb : mant b = 0
  · rw [addCore_of_right_zero s hza hzb, addCore_of_right_zero s' (hma ▸ hza) (hmb ▸ hzb)]
    exact .ok ha (hρ.refl 0)
  rw [addCore_of_ne_zero s hza hzb, addCore_of_ne_zero s' (hma ▸ hza) (hmb ▸ hzb), hρ.smadd_eq ha hb]
  cases smadd a' b' with
  | none => exact .big
  | some r => exact .ok (hρ.refl r) (hρ.refl 0)

theorem mulCore_ownPart : OwnPart ρ s s' (mulCore a b s) (mulCore a' b' s') := by
  obtain ⟨hma, hsa, hea⟩ := hρ.fields ha
  obtain ⟨hmb, hsb, heb⟩ := hρ.fields hb
  by_cases hzero : mant a = 0 ∨ mant b = 0
  · rw [mulCore_of_zero s hzero, mulCore_of_zero s' (hma ▸ hmb ▸ hzero)]
    exact .ok (hρ.refl 0) (hρ.refl 0)
  rw [mulCore_of_ne_zero s hzero, mulCore_of_ne_zero s' (hma ▸ hmb ▸ hzero), hma, hsa, hea, hmb, hsb, heb]
  split_ifs
  · exact .big
  · exact .ok (hρ.refl _) (hρ.refl 0)
  · exact .ok (hρ.refl _) (hρ.refl 0)

theorem divCore_ownPart : OwnPart ρ s s' (divCore a b s) (divCore a' b' s') := by
  obtain ⟨hma, hsa, -⟩ := hρ.fields ha
  obtain ⟨hmb, hsb, -⟩ := hρ.fields hb
  by_cases hzb : mant b = 0
  · rw [divCore_of_zero_divisor s hzb, divCore_of_zero_divisor s' (hmb ▸ hzb)]
    exact .divByZero
  by_cases hza : mant a = 0
  · rw [divCore_of_zero_dividend s hzb hza, divCore_of_zero_dividend s' (hmb ▸ hzb) (hma ▸ hza)]
    exact .ok (hρ.refl 0) (hρ.refl 0)
  obtain ⟨hfst, hsnd⟩ := hρ.normalize ha hb
  obtain ⟨hm₁, -, he₁⟩ := hρ.fields hfst
  obtain ⟨hm₂, -, -⟩ := hρ.fields hsnd
  rw [divCore_of_ne_zero s hzb hza, divCore_of_ne_zero s' (hmb ▸ hzb) (hma ▸ hza), hsa, hsb, hm₁, he₁, hm₂]
  split_ifs
  · exact .small
  · exact .ok (hρ.refl _) (hρ.refl _)

end

/-! ### The checks of a command, from its row of R66 -/

/-- What a command with own part `k` ends in: BAD_INPUT where its operands break a precondition (R185, R187). -/
def checked (i : Instr) (s k : State) : State :=
  if commandFault i s.latch.a s.latch.b = none then k else raiseBadInput s

section
variable {i : Instr} (s k : State)

theorem checkNd_eq_checked (hA : readsScaleA i = false) (hB : readsScaleB i = false) :
    checkNd (nullDestinationOf i) s k = checked i s k := by
  rw [checked, commandFault, hA, hB]
  cases nullDestinationOf i <;> rfl

theorem checkNd_checkCanonA_eq_checked (hA : readsScaleA i = true) (hB : readsScaleB i = false) :
    checkNd (nullDestinationOf i) s (checkCanonA s k) = checked i s k := by
  rw [checked, commandFault, hA, hB, checkCanonA]
  cases nullDestinationOf i <;> cases canon s.latch.a <;> rfl

theorem checkNd_checkCanonAB_eq_checked (hA : readsScaleA i = true) (hB : readsScaleB i = true) :
    checkNd (nullDestinationOf i) s (checkCanonAB s k) = checked i s k := by
  rw [checked, commandFault, hA, hB, checkCanonAB]
  cases nullDestinationOf i <;> cases canon s.latch.a <;> cases canon s.latch.b <;> rfl

end

/-- The two runs pass the command's checks, and behind them complete alike. -/
def RunsAlike (ρ : Value → Value → Prop) (i : Instr) (s s' : State) : Prop :=
  ∃ k k', OwnPart ρ s s' k k' ∧ exec i s = .next (checked i s k) ∧ exec i s' = .next (checked i s' k')

section
variable {ρ : Value → Value → Prop} {i : Instr} {s s' k k' : State}

theorem RunsAlike.of_no_scale (hA : readsScaleA i = false) (hB : readsScaleB i = false)
    (hexec : exec i s = .next (checkNd (nullDestinationOf i) s k))
    (hexec' : exec i s' = .next (checkNd (nullDestinationOf i) s' k')) (h : OwnPart ρ s s' k k') :
    RunsAlike ρ i s s' :=
  ⟨k, k', h, by rw [hexec, checkNd_eq_checked s k hA hB], by rw [hexec', checkNd_eq_checked s' k' hA hB]⟩

theorem RunsAlike.of_scale_a (hA : readsScaleA i = true) (hB : readsScaleB i = false)
    (hexec : exec i s = .next (checkNd (nullDestinationOf i) s (checkCanonA s k)))
    (hexec' : exec i s' = .next (checkNd (nullDestinationOf i) s' (checkCanonA s' k'))) (h : OwnPart ρ s s' k k') :
    RunsAlike ρ i s s' :=
  ⟨k, k', h, by rw [hexec, checkNd_checkCanonA_eq_checked s k hA hB],
    by rw [hexec', checkNd_checkCanonA_eq_checked s' k' hA hB]⟩

theorem RunsAlike.of_scale_ab (hA : readsScaleA i = true) (hB : readsScaleB i = true)
    (hexec : exec i s = .next (checkNd (nullDestinationOf i) s (checkCanonAB s k)))
    (hexec' : exec i s' = .next (checkNd (nullDestinationOf i) s' (checkCanonAB s' k'))) (h : OwnPart ρ s s' k k') :
    RunsAlike ρ i s s' :=
  ⟨k, k', h, by rw [hexec, checkNd_checkCanonAB_eq_checked s k hA hB],
    by rw [hexec', checkNd_checkCanonAB_eq_checked s' k' hA hB]⟩

end

/-- Every command runs alike on connected operands. -/
theorem runsAlike {ρ : Value → Value → Prop} (hρ : OperandRel ρ) {s s' : State} (ha : ρ s.latch.a s'.latch.a)
    (hb : ρ s.latch.b s'.latch.b) (i : Instr) : RunsAlike ρ i s s' := by
  obtain ⟨hma, hsa, hea⟩ := hρ.fields ha
  have hmb := (hρ.fields hb).1
  have hn := int32_eq_of_mant_eq hmb
  have hcmp := hρ.scmp_eq ha hb
  cases i with
  | zero => exact .of_no_scale rfl rfl rfl rfl (.ok (hρ.refl 0) (hρ.refl 0))
  | getsign =>
    refine .of_no_scale rfl rfl rfl rfl (.ok (hρ.refl 0) (hρ.of_eq ?_))
    rw [hsa]
  | setsign v => exact .of_no_scale rfl rfl rfl rfl (.ok (hρ.withSign v ha) (hρ.refl 0))
  | getscale =>
    refine .of_no_scale rfl rfl rfl rfl (.ok (hρ.refl 0) (hρ.of_eq ?_))
    rw [reportedScale, reportedScale, hea]
  | setscale =>
    refine .of_no_scale rfl rfl rfl rfl (.ok ?_ (hρ.refl 0))
    rw [hn]
    exact hρ.withScale _ ha
  | getbit =>
    refine .of_no_scale rfl rfl rfl rfl (.ok (hρ.refl 0) (hρ.of_eq ?_))
    rw [hn, mantissaBit_eq_of_mant_eq hma]
  | setbit v =>
    refine .of_no_scale rfl rfl rfl rfl (.ok ?_ (hρ.refl 0))
    rw [hn]
    exact hρ.setMantissaBit _ v ha
  | shl =>
    refine .of_no_scale rfl rfl rfl rfl (.ok ?_ (hρ.of_eq ?_))
    · rw [hma]
      exact hρ.withMant _ ha
    · rw [getLsbD_eq_of_mant_eq hma (by decide)]
  | shr =>
    refine .of_no_scale rfl rfl rfl rfl (.ok ?_ (hρ.of_eq ?_))
    · rw [hma]
      exact hρ.withMant _ ha
    · rw [getLsbD_eq_of_mant_eq hma (by decide)]
  | pack v =>
    refine .of_no_scale rfl rfl rfl rfl (.ok (hρ.of_eq ?_) (hρ.refl 0))
    rw [hn, hma]
  | iszero =>
    refine .of_no_scale rfl rfl rfl rfl (.ok (hρ.refl 0) (hρ.of_eq ?_))
    rw [isZero, isZero, hma]
  | mcmp =>
    refine .of_no_scale rfl rfl rfl rfl (.ok (hρ.refl 0) (hρ.of_eq ?_))
    rw [hma, hmb]
  | madd | msub | mmul =>
    refine .of_no_scale rfl rfl rfl rfl (.ok (hρ.of_eq ?_) (hρ.of_eq ?_)) <;> rw [hma, hmb]
  | mdiv =>
    by_cases hzero : mant s.latch.b = 0
    · exact .of_no_scale rfl rfl (if_pos hzero) (if_pos (hmb ▸ hzero)) .mdivByZero
    · refine .of_no_scale rfl rfl (if_neg hzero) (if_neg (hmb ▸ hzero)) (.ok (hρ.of_eq ?_) (hρ.of_eq ?_)) <;>
        rw [hma, hmb]
  | mul10 | div10 =>
    refine .of_no_scale rfl rfl rfl rfl (.ok (hρ.of_eq ?_) (hρ.of_eq ?_)) <;> rw [hma]
  | cmpabs =>
    refine .of_scale_ab rfl rfl rfl rfl (.ok (hρ.refl 0) (hρ.of_eq ?_))
    rw [hρ.cmpabs_eq ha hb]
  | norm =>
    obtain ⟨hfst, hsnd⟩ := hρ.normalize ha hb
    exact .of_scale_ab rfl rfl rfl rfl (.ok hfst hsnd)
  | cmp | lt | le | gt | ge | eq | ne =>
    refine .of_scale_ab rfl rfl rfl rfl (.ok (hρ.refl 0) (hρ.of_eq ?_))
    rw [hcmp]
  | add nd => exact .of_scale_ab rfl rfl rfl rfl (addCore_ownPart hρ ha hb)
  | sub nd => exact .of_scale_ab rfl rfl rfl rfl (addCore_ownPart hρ ha (hρ.flipSign hb))
  | mul nd => exact .of_scale_ab rfl rfl rfl rfl (mulCore_ownPart hρ ha hb)
  | div nd => exact .of_scale_ab rfl rfl rfl rfl (divCore_ownPart hρ ha hb)
  | neg nd => exact .of_no_scale rfl rfl rfl rfl (.ok (hρ.flipSign ha) (hρ.refl 0))
  | brnd nd | round nd | trunc nd | floor nd =>
    refine .of_scale_a rfl rfl rfl rfl (.ok (hρ.of_eq ?_) (hρ.refl 0))
    simp only [hma, hsa, hea]

/-! ### Results side by side -/

/-- Two completed states with one status, one draw counter and connected results. -/
structure SameResults (ρ : Value → Value → Prop) (t t' : State) : Prop where
  st_eq : t.st = t'.st
  draws_eq : t.draws = t'.draws
  r_rel : ρ t.r t'.r
  x_rel : ρ t.x t'.x

section
variable {ρ : Value → Value → Prop} (hρ : OperandRel ρ) {s s' k k' : State} (hdraws : s.draws = s'.draws)
include hρ hdraws

theorem OwnPart.sameResults (h : OwnPart ρ s s' k k') : SameResults ρ k k' := by
  cases h with
  | ok hr hx => exact ⟨rfl, hdraws, hr, hx⟩
  | small => exact ⟨rfl, hdraws, hρ.refl 0, hρ.refl 0⟩
  | big | divByZero =>
    exact ⟨rfl, congrArg (· + 1) hdraws, hρ.of_eq (congrArg Config.unspec hdraws), hρ.refl 0⟩
  | mdivByZero =>
    exact ⟨rfl, congrArg (· + 1 + 1) hdraws, hρ.of_eq (congrArg Config.unspec hdraws),
      hρ.of_eq (congrArg (Config.unspec <| · + 1) hdraws)⟩

end

theorem OwnPart.st_ne_badInput {ρ : Value → Value → Prop} {s s' k k' : State} (h : OwnPart ρ s s' k k') :
    k.st ≠ .badInput := by
  cases h <;> exact nofun

section
variable {ρ : Value → Value → Prop} (hρ : OperandRel ρ) {s s' : State} (ha : ρ s.latch.a s'.latch.a)
  (hb : ρ s.latch.b s'.latch.b) (i : Instr)
include hρ ha hb

/-- Connected operands break the same preconditions, so both runs end in their own part or both with BAD_INPUT. -/
theorem exec_alike :
    (∃ k k', OwnPart ρ s s' k k' ∧ exec i s = .next k ∧ exec i s' = .next k') ∨
      (exec i s = .next (raiseBadInput s) ∧ exec i s' = .next (raiseBadInput s')) := by
  have hfault : commandFault i s.latch.a s.latch.b = commandFault i s'.latch.a s'.latch.b := by
    have hca : canon s.latch.a = canon s'.latch.a := by rw [canon, canon, (hρ.fields ha).2.2]
    have hcb : canon s.latch.b = canon s'.latch.b := by rw [canon, canon, (hρ.fields hb).2.2]
    rw [commandFault, commandFault, hca, hcb]
  obtain ⟨k, k', hown, hexec, hexec'⟩ := runsAlike hρ ha hb i
  rw [checked] at hexec
  rw [checked, ← hfault] at hexec'
  split_ifs at hexec hexec'
  · exact .inl ⟨k, k', hown, hexec, hexec'⟩
  · exact .inr ⟨hexec, hexec'⟩

theorem exec_sameResults (hdraws : s.draws = s'.draws) (hr : ρ s.r s'.r) (hx : ρ s.x s'.x) :
    ∃ t t', exec i s = .next t ∧ exec i s' = .next t' ∧ SameResults ρ t t' := by
  obtain ⟨k, k', hown, hexec, hexec'⟩ | ⟨hexec, hexec'⟩ := exec_alike hρ ha hb i
  · exact ⟨k, k', hexec, hexec', hown.sameResults hρ hdraws⟩
  · exact ⟨_, _, hexec, hexec', rfl, hdraws, hr, hx⟩

end

/-- R30: what a completion writes depends on the latch, and on the earlier R and X where it keeps them. -/
theorem complete_sameResults {s s' : State} (hlatch : s.latch = s'.latch) (hdraws : s.draws = s'.draws)
    (hr : s.r = s'.r) (hx : s.x = s'.x) :
    ∃ t t', complete s = .next t ∧ complete s' = .next t' ∧ SameResults Eq t t' := by
  cases hdecode : decodeFields s.latch.opc s.latch.v s.latch.nd with
  | ok i =>
    rw [complete_of_decodeFields hdecode, complete_of_decodeFields (hlatch ▸ hdecode)]
    exact exec_sameResults operandRel_eq (congrArg Latch.a hlatch) (congrArg Latch.b hlatch) i hdraws hr hx
  | error e =>
    refine ⟨raiseBadInput s, raiseBadInput s', ?_, ?_, rfl, hdraws, hr, hx⟩
    · rw [complete, hdecode]
    · rw [complete, ← hlatch, hdecode]

/-! ### Preconditions and BAD_INPUT -/

/-- R185, R187: a command ends with BAD_INPUT exactly if its operands break a precondition. -/
theorem exec_badInput_iff (i : Instr) (s : State) :
    ∃ t, exec i s = .next t ∧ (commandFault i s.latch.a s.latch.b = none ↔ t.st ≠ .badInput) := by
  obtain ⟨k, k', hown, hexec, -⟩ := runsAlike operandRel_eq (s := s) (s' := s) rfl rfl i
  refine ⟨_, hexec, ?_⟩
  rw [checked]
  split_ifs with hnone
  · simp [hnone, hown.st_ne_badInput]
  · simp [hnone]

theorem complete_badInput_iff (s : State) :
    ∃ t, complete s = .next t ∧ (latchFault s.latch = none ↔ t.st ≠ .badInput) := by
  obtain ⟨i, hdecode, hexec⟩ | ⟨⟨e, hdecode⟩, hbad⟩ := complete_cases s
  · rw [latchFault, hexec, hdecode]
    exact exec_badInput_iff i s
  · rw [latchFault, hdecode]
    exact ⟨_, hbad, by simp⟩

end Sys2Proof.Machine

namespace Sys2Proof.Proofs

open Sys2Proof.Machine Sys2Proof.Claims

/-- Settles O19: equal latches run alike, and a completion leaves A and B as they were. -/
theorem resultsDependOnTheLatchOnly : Obligations.ResultsDependOnTheLatchOnly := by
  intro i s s' hlatch hdraws
  have hkeeps {s t : State} (hexec : exec i s = .next t) : t.a = s.a ∧ t.b = s.b := by
    rw [(completion_of_exec hexec).completesFrom]
    exact ⟨rfl, rfl⟩
  obtain ⟨t, t', hown, hexec, hexec'⟩ | ⟨hexec, hexec'⟩ :=
    exec_alike operandRel_eq (congrArg Latch.a hlatch) (congrArg Latch.b hlatch) i
  · have hsame := hown.sameResults operandRel_eq hdraws
    exact ⟨t, t', hexec, hexec', (hkeeps hexec).1, (hkeeps hexec).2, (hkeeps hexec').1, (hkeeps hexec').2,
      hsame.st_eq, fun _ => ⟨hsame.r_rel, hsame.x_rel⟩⟩
  · exact ⟨_, _, hexec, hexec', rfl, rfl, rfl, rfl, rfl, fun hne => absurd rfl hne⟩

/-- Settles O55: agreement up to reserved bits is a relation under which every command runs alike. -/
theorem reservedBitsDoNotMatter : Obligations.ReservedBitsDoNotMatter := by
  intro i s s' ha hb hdraws hr hx
  obtain ⟨t, t', hexec, hexec', hsame⟩ := exec_sameResults operandRel_sameFields ha hb i hdraws hr hx
  exact ⟨t, t', hexec, hexec', hsame.st_eq, hsame.r_rel, hsame.x_rel⟩

/-- Settles O56: a due completion's precondition is that of the latched command. -/
theorem safeStepsNeverGiveBadInput : Obligations.SafeStepsNeverGiveBadInput := by
  intro s hreset hdue
  rw [step_eq_complete hdue hreset, SafeStep, hostFault, if_neg (by simp [hreset]), if_pos hdue]
  exact complete_badInput_iff s

end Sys2Proof.Proofs
end

section
/-! Runs of several steps: a command that runs to its completion whatever quiet inputs come (R208, R209), and the
transaction load A, load B, write CMD, wait of R73. -/

namespace Sys2Proof.Machine

open Sys2Proof.Claims

/-! ### Runs -/

section
variable {M : Host.Core} {s t : M.State}

theorem run_succ (hstep : M.step s = .next t) (k : Nat) : M.run (k + 1) s = M.run k t := by
  rw [Host.Core.run, hstep]

theorem step_of_run_succ {k : Nat} (hrun : M.run (k + 1) s = .next t) :
    ∃ u, M.step s = .next u ∧ M.run k u = .next t := by
  rw [Host.Core.run] at hrun
  split at hrun
  · next u hstep => exact ⟨u, hstep, hrun⟩
  · cases hrun
  · cases hrun

theorem run_add {m : Nat} (hrun : M.run m s = .next t) (n : Nat) : M.run (m + n) s = M.run n t := by
  induction m generalizing s with
  | zero =>
    cases hrun
    rw [Nat.zero_add]
  | succ m ih =>
    obtain ⟨u, hstep, hrest⟩ := step_of_run_succ hrun
    rw [Nat.add_right_comm, run_succ hstep, ih hrest]

end

/-! ### Quiet inputs while a command runs -/

theorem ne_reset_of_quiet {e : HostEvent} (h : quiet e = true) : e ≠ .reset := by
  rintro rfl
  exact absurd h (by decide)

/-- An input that stays in the window is performed, as an access or as a bus error. -/
theorem exists_hostAct_of_quiet {e : HostEvent} (h : quiet e = true) (s : State) : ∃ t, hostAct e s = .next t := by
  cases e with
  | idle => exact ⟨s, rfl⟩
  | wait => exact ⟨pollStatus s, rfl⟩
  | reset => exact ⟨resetBlock s, rfl⟩
  | read addr width =>
    cases hoff : windowOffset addr with
    | none => simp [quiet, accessFault, hoff] at h
    | some off =>
      simp only [hostAct, busRead, hoff]
      split_ifs <;> exact ⟨_, rfl⟩
  | write addr width v =>
    cases hoff : windowOffset addr with
    | none => simp [quiet, accessFault, hoff] at h
    | some off =>
      simp only [hostAct, busWrite, hoff]
      split_ifs <;> exact ⟨_, rfl⟩

/-- The same command runs in both states, from the same latch and before the same results. -/
structure SameCommand (s t : State) : Prop where
  busy : t.busy = s.busy
  cmd : t.cmd = s.cmd
  latch : t.latch = s.latch
  r : t.r = s.r
  x : t.x = s.x
  draws : t.draws = s.draws

theorem SameCommand.refl (s : State) : SameCommand s s := ⟨rfl, rfl, rfl, rfl, rfl, rfl⟩

theorem SameCommand.trans {s t u : State} (hst : SameCommand s t) (htu : SameCommand t u) : SameCommand s u :=
  ⟨htu.busy.trans hst.busy, htu.cmd.trans hst.cmd, htu.latch.trans hst.latch, htu.r.trans hst.r, htu.x.trans hst.x,
    htu.draws.trans hst.draws⟩

/-- While a command runs no input changes it, and the inputs to come are the rest, or a poll and the rest. -/
theorem HostEffect.while_busy {e : HostEvent} {s t : State} (h : HostEffect e s t) (hbusy : s.busy = true) :
    SameCommand s t ∧ t.due = s.due ∧ (t.script = s.script ∨ t.script = .wait :: s.script) := by
  cases h with
  | keeps replies hscript => exact ⟨⟨rfl, rfl, rfl, rfl, rfl, rfl⟩, rfl, hscript⟩
  | writesA | writesB => exact ⟨⟨rfl, rfl, rfl, rfl, rfl, rfl⟩, rfl, .inl rfl⟩
  | accepts v hidle => simp [hidle] at hbusy

theorem resetNext_of_quiet {s : State} (hquiet : ∀ e ∈ s.script, quiet e = true) : resetNext s = false := by
  cases hscript : s.script with
  | nil => simp [resetNext, hscript]
  | cons e rest =>
    have he := ne_reset_of_quiet (hquiet e (by simp [hscript]))
    simp [resetNext, hscript, he]

/-- One cycle of a running command that is not due yet. -/
theorem step_while_busy {s : State} {d : Nat} (hbusy : s.busy = true) (hdue : s.due = d + 1)
    (hquiet : ∀ e ∈ s.script, quiet e = true) :
    ∃ t, step s = .next t ∧ SameCommand s t ∧ t.due = d ∧ ∀ e ∈ t.script, quiet e = true := by
  have hnotDue : completionDue s = false := by simp [completionDue, hdue]
  cases hscript : s.script with
  | nil =>
    refine ⟨_, step_of_no_input hscript hnotDue, ⟨rfl, rfl, rfl, rfl, rfl, rfl⟩, ?_, by simp [cyclePassed]⟩
    simp [cyclePassed, hbusy, hdue]
  | cons e rest =>
    rw [hscript, List.forall_mem_cons] at hquiet
    obtain ⟨he, hrest⟩ := hquiet
    obtain ⟨t, hact⟩ := exists_hostAct_of_quiet he (cyclePassed s rest)
    obtain ⟨hsame, hdueT, hscriptT⟩ := (hostAct_effect (ne_reset_of_quiet he) hact).while_busy hbusy
    refine ⟨t, (step_eq_hostAct hscript (ne_reset_of_quiet he) hnotDue).trans hact,
      .trans (t := cyclePassed s rest) ⟨rfl, rfl, rfl, rfl, rfl, rfl⟩ hsame, ?_, ?_⟩
    · rw [hdueT]
      simp [cyclePassed, hbusy, hdue]
    · obtain hscriptT | hscriptT := hscriptT <;> rw [hscriptT]
      · exact hrest
      · exact List.forall_mem_cons.mpr ⟨rfl, hrest⟩

/-- The cycles a running command has left, whatever quiet inputs come. -/
theorem run_until_due {d : Nat} {s : State} (hbusy : s.busy = true) (hdue : s.due = d)
    (hquiet : ∀ e ∈ s.script, quiet e = true) :
    ∃ t, core.run d s = .next t ∧ SameCommand s t ∧ completionDue t = true ∧ resetNext t = false := by
  induction d generalizing s with
  | zero => exact ⟨s, rfl, .refl s, by simp [completionDue, hbusy, hdue], resetNext_of_quiet hquiet⟩
  | succ d ih =>
    obtain ⟨u, hstep, hsame, hdueU, hquietU⟩ := step_while_busy hbusy hdue hquiet
    obtain ⟨t, hrun, hsameT, hend⟩ := ih (hsame.busy.trans hbusy) hdueU hquietU
    exact ⟨t, (run_succ hstep d).trans hrun, hsame.trans hsameT, hend⟩

/-- R184: R and X are kept on BAD_INPUT. -/
theorem complete_badInput_keeps {s t : State} (h : complete s = .next t) (hst : t.st = .badInput) :
    t.r = s.r ∧ t.x = s.x := by
  obtain ⟨i, -, hexec⟩ | ⟨-, hbad⟩ := complete_cases s
  · cases completion_of_exec (hexec.symm.trans h) with
    | badInput => exact ⟨rfl, rfl⟩
    | ok | big | small | divByZero | mdivByZero => cases hst
  · cases hbad.symm.trans h
    exact ⟨rfl, rfl⟩

/-! ### Loading an operand word by word -/

/-- An idle block performs a word write at once, and no time passes (R43, R195). -/
theorem step_write_of_idle {s : State} {off : Nat} {v : Word32} {rest : List HostEvent} (hidle : s.busy = false)
    (hscript : s.script = .write (Config.base + off) 4 v :: rest) (hoff : off < 0x100) (hal : off % 4 = 0) :
    step s = .next (memWrite off v { s with script := rest }) := by
  have hcycle : tick { s with script := rest } = { s with script := rest } := cyclePassed_of_idle hidle rest
  rw [step_write hscript (completionDue_of_idle hidle), busWrite_word v _ hoff hal, hcycle]

/-- The four words of a register replaced by those of `q` make `q` (R21). -/
theorem setRegWord_words (p q : Value) :
    setRegWord (setRegWord (setRegWord (setRegWord p 0 (regWord q 0)) 1 (regWord q 1)) 2 (regWord q 2)) 3
      (regWord q 3) = q := by
  apply BitVec.eq_of_getLsbD_eq
  intro i hi
  have hword : i / 32 < 4 := by omega
  have hbit := getLsbD_regWord q (i / 32) (Nat.mod_lt i (by decide : 0 < 32))
  rw [Nat.div_add_mod] at hbit
  simp only [getLsbD_setRegWord _ _ _ hi]
  interval_cases i / 32 <;> simpa using hbit

/-- What a word write does takes no notice of the inputs to come. -/
theorem memWrite_with_script (off : Nat) (v : Word32) (s : State) (script : List HostEvent) :
    memWrite off v { s with script := script } = { memWrite off v s with script := script } := by
  unfold memWrite
  split_ifs <;> rfl

theorem memWrite_operand_busy {off : Nat} (v : Word32) (s : State) (hoff : off < 0x20) :
    (memWrite off v s).busy = s.busy := by
  unfold memWrite
  split_ifs
  · rfl
  · rfl

/-- The host's word writes at the given offsets, in order. -/
def wordWrites (ws : List (Nat × Word32)) : List HostEvent :=
  ws.map fun w => .write (Config.base + w.1) 4 w.2

/-- The block after word writes at the given offsets, in order. -/
def afterWrites (ws : List (Nat × Word32)) (s : State) : State :=
  ws.foldl (fun s w => memWrite w.1 w.2 s) s

/-- An idle block takes operand writes one a step. -/
theorem run_wordWrites {ws : List (Nat × Word32)} (hws : ∀ w ∈ ws, w.1 < 0x20 ∧ w.1 % 4 = 0) {s : State}
    {rest : List HostEvent} (hidle : s.busy = false) (hscript : s.script = wordWrites ws ++ rest) :
    core.run ws.length s = .next (afterWrites ws { s with script := rest }) := by
  induction ws generalizing s with
  | nil => exact congrArg Host.Outcome.next (by rw [afterWrites, List.foldl_nil, ← show s.script = rest from hscript])
  | cons w ws ih =>
    obtain ⟨⟨hoff, hal⟩, hws⟩ := List.forall_mem_cons.mp hws
    have hstep := step_write_of_idle hidle hscript (by omega) hal
    have hrest := ih hws (s := memWrite w.1 w.2 { s with script := wordWrites ws ++ rest })
      ((memWrite_operand_busy _ _ hoff).trans hidle) (by rw [memWrite_with_script])
    rw [← memWrite_with_script] at hrest
    exact (run_succ (M := core) hstep _).trans hrest

/-- The eight writes of `ldA` and `ldB`, words 0 to 3 of each operand (R73). -/
def loadWords (qa qb : Value) : List (Nat × Word32) :=
  [(0x00, regWord qa 0), (0x04, regWord qa 1), (0x08, regWord qa 2), (0x0C, regWord qa 3),
    (0x10, regWord qb 0), (0x14, regWord qb 1), (0x18, regWord qb 2), (0x1C, regWord qb 3)]

theorem afterWrites_loadWords (qa qb : Value) (s : State) :
    afterWrites (loadWords qa qb) s = { s with a := qa, b := qb } := by
  simp [afterWrites, loadWords, memWrite, setRegWord_words]

/-! ### Polling -/

/-- A block that runs a command answers a poll and keeps it to come. -/
theorem step_poll_busy {s : State} {d : Nat} {rest : List HostEvent} (hbusy : s.busy = true) (hdue : s.due = d + 1)
    (hscript : s.script = .wait :: rest) :
    step s = .next { s with due := d, replies := .data (statusWord s) :: s.replies } := by
  rw [step_poll hscript (by simp [completionDue, hdue])]
  simp [cyclePassed, hbusy, hdue, hscript]

/-- A block that runs no command answers a poll, which ends the loop. -/
theorem step_poll_idle {s : State} {rest : List HostEvent} (hidle : s.busy = false)
    (hscript : s.script = .wait :: rest) :
    step s = .next { s with script := rest, replies := .data (statusWord s) :: s.replies } := by
  rw [step_poll hscript (completionDue_of_idle hidle)]
  simp [cyclePassed, hidle]

/-- The host polls until the completion is due. -/
theorem run_polls {d : Nat} {s : State} {rest : List HostEvent} (hbusy : s.busy = true) (hdue : s.due = d)
    (hscript : s.script = .wait :: rest) :
    ∃ replies, core.run d s = .next { s with due := 0, replies := replies } := by
  induction d generalizing s with
  | zero => exact ⟨s.replies, congrArg Host.Outcome.next (by rw [← hdue])⟩
  | succ d ih =>
    obtain ⟨replies, hrun⟩ :=
      ih (s := { s with due := d, replies := .data (statusWord s) :: s.replies }) hbusy rfl hscript
    exact ⟨replies, (run_succ (M := core) (step_poll_busy hbusy hdue hscript) d).trans hrun⟩

/-- A running command whose host polls completes when it is due, and the poll after that ends the loop; `p` is any
state that would complete with the same results. -/
theorem run_polls_complete {d : Nat} {s p : State} {rest : List HostEvent} (hbusy : s.busy = true) (hdue : s.due = d)
    (hscript : s.script = .wait :: rest) (hlatch : s.latch = p.latch) (hdraws : s.draws = p.draws) (hr : s.r = p.r)
    (hx : s.x = p.x) :
    ∃ t c, core.run (d + 2) s = .next t ∧ complete p = .next c ∧ SameResults Eq t c ∧ t.a = s.a ∧ t.b = s.b ∧
      t.cmd = s.cmd ∧ t.busy = false ∧ t.done = true ∧ t.script = rest := by
  obtain ⟨replies, hpolls⟩ := run_polls hbusy hdue hscript
  obtain ⟨u, c, hu, hc, hresults⟩ :=
    complete_sameResults (s := { s with due := 0, replies := replies }) hlatch hdraws hr hx
  have hstep := (step_eq_complete (by simp [completionDue, hbusy]) (by simp [resetNext, hscript])).trans hu
  have hframe := completesFrom_of_complete hu
  have hpoll := step_poll_idle (s := u) (rest := rest) (by rw [hframe]) (by rw [hframe]; exact hscript)
  refine ⟨_, c, (run_add hpolls 2).trans <| (run_succ (M := core) hstep 1).trans <| run_succ (M := core) hpoll 0, hc,
    ⟨hresults.st_eq, hresults.draws_eq, hresults.r_rel, hresults.x_rel⟩, ?_⟩
  rw [hframe]
  exact ⟨rfl, rfl, rfl, rfl, rfl, rfl⟩

/-- An idle block accepts a CMD write whatever comes after it (R205). -/
theorem step_cmd_write_of_idle {s : State} {w : Word32} {rest : List HostEvent} (hidle : s.busy = false)
    (hscript : s.script = Script.wr 0x40 w ++ rest) : step s = .next (accept w { s with script := rest }) :=
  (step_write_of_idle hidle hscript (by decide) (by decide)).trans
    (congrArg Host.Outcome.next (memWrite_cmd_of_idle w hidle))

/-- `exec` of R73 on an idle block, to the end of its polling. -/
theorem run_script_exec {s : State} {w : Word32} {rest : List HostEvent} (hidle : s.busy = false)
    (hscript : s.script = Script.exec w ++ rest) (script : List HostEvent) :
    ∃ t c, core.run (Config.latency (wordOpc w) s.a s.b + 2) s = .next t ∧
      complete (accept w { s with script := script }) = .next c ∧ SameResults Eq t c ∧ t.a = s.a ∧ t.b = s.b ∧
      t.cmd = ⟨wordOpc w, wordV w, wordNd w⟩ ∧ t.busy = false ∧ t.done = true ∧ t.script = rest := by
  have haccept := step_cmd_write_of_idle hidle hscript
  obtain ⟨t, c, hrun, hend⟩ :=
    run_polls_complete (s := accept w { s with script := Script.wait ++ rest })
      (p := accept w { s with script := script }) rfl rfl rfl rfl rfl rfl rfl
  exact ⟨t, c, (run_succ (M := core) haccept _).trans hrun, hend⟩

end Sys2Proof.Machine

namespace Sys2Proof.Proofs

open Sys2Proof.Machine Sys2Proof.Claims

/-- Settles O20: the cycles left change nothing the completion reads, and then the completion step is taken. -/
theorem runningCommandCompletes : Obligations.RunningCommandCompletes := by
  intro s hbusy hquiet
  obtain ⟨u, hrun, hsame, hdue, hreset⟩ := run_until_due hbusy rfl hquiet
  obtain ⟨t, c, ht, hc, hresults⟩ := complete_sameResults hsame.latch hsame.draws hsame.r hsame.x
  have hframe := completesFrom_of_complete ht
  refine ⟨t, c, ?_, hc, by rw [hframe], by rw [hframe], ?_, hresults.st_eq, hresults.draws_eq,
    fun _ => ⟨hresults.r_rel, hresults.x_rel⟩, fun hbad => ?_⟩
  · exact (run_add hrun 1).trans (run_succ (M := core) ((step_eq_complete hdue hreset).trans ht) 0)
  · rw [hframe]
    exact hsame.cmd
  · rw [hresults.r_rel, hresults.x_rel]
    exact complete_badInput_keeps hc hbad

/-- Settles O21: eight operand writes, the accepted CMD write, polls until the completion, and the last poll. -/
theorem hostTransaction : Obligations.HostTransaction := by
  intro s qa qb w rest hidle hscript
  have hload := run_wordWrites (ws := loadWords qa qb) (by simp [loadWords]) hidle (rest := Script.exec w ++ rest)
    (by rw [hscript, List.append_assoc]; rfl)
  rw [afterWrites_loadWords] at hload
  obtain ⟨t, c, hrun, hc, hresults, ha, hb, hcmd, hbusy, hdone, hrest⟩ :=
    run_script_exec (s := { s with a := qa, b := qb, script := Script.exec w ++ rest }) (rest := rest) hidle rfl
      s.script
  exact ⟨t, c, (run_add hload _).trans hrun, hc, ha, hb, hcmd, hbusy, hdone, hresults.r_rel, hresults.x_rel,
    hresults.st_eq, hrest⟩

end Sys2Proof.Proofs
end

section
/-! Values under normalisation (R2, R120 to R123, R140): where normalisation completes both operands are numbers over
one power of ten, so comparing and adding the mantissas is comparing and adding the values. -/

namespace Sys2Proof.Machine

open Sys2Proof.Claims

/-! ### The value of a word -/

theorem value_eq_signed_abs (w : Value) : value w = if sgn w then -|value w| else |value w| := by
  rw [abs_value, value]
  cases sgn w <;> simp [neg_div]

theorem value_eq_zero_iff (w : Value) : value w = 0 ↔ mant w = 0 := by
  rw [← abs_eq_zero, abs_value]
  simp

theorem abs_value_pos {w : Value} (h : mant w ≠ 0) : 0 < |value w| :=
  abs_pos.mpr (mt (value_eq_zero_iff w).mp h)

theorem value_pos {w : Value} (hmant : mant w ≠ 0) (hsgn : sgn w = false) : 0 < value w := by
  rw [value_eq_signed_abs, hsgn]
  exact abs_value_pos hmant

theorem value_neg {w : Value} (hmant : mant w ≠ 0) (hsgn : sgn w = true) : value w < 0 := by
  rw [value_eq_signed_abs, hsgn]
  exact neg_neg_of_pos (abs_value_pos hmant)

theorem value_pack (s : Bool) {e m : Nat} (he : e < 2 ^ 8) (hm : m < 2 ^ 96) :
    value (pack s e m) = (if s then -1 else 1) * (m : ℚ) / 10 ^ e := by
  rw [value, sgn_pack s he hm, mant_pack s he hm, scl_pack s he hm]

@[simp] theorem value_flipSign (w : Value) : value (flipSign w) = -value w := by
  rw [value, value, sgn_flipSign, mant_flipSign, scl_flipSign]
  cases sgn w <;> simp [neg_div]

/-! ### One power of ten -/

theorem mcmp_eq_cmp (m n : Nat) : mcmp m n = cmp m n := by
  obtain hlt | heq | hgt := Nat.lt_trichotomy m n
  · rw [(mcmp_lt_iff m n).mpr hlt, (cmp_eq_lt_iff m n).mpr hlt]
  · rw [(mcmp_eq_iff m n).mpr heq, (cmp_eq_eq_iff m n).mpr heq]
  · rw [(mcmp_gt_iff m n).mpr hgt, (cmp_eq_gt_iff m n).mpr hgt]

theorem value_normalize (a b : Value) : value (normalize a b).1 = value a ∧ value (normalize a b).2 = value b := by
  rw [normalize_eq_raiseScale]
  exact ⟨value_raiseScale (scl_lt b), value_raiseScale (scl_lt a)⟩

theorem sgn_normalize (a b : Value) : sgn (normalize a b).1 = sgn a ∧ sgn (normalize a b).2 = sgn b := by
  rw [normalize_eq_raiseScale]
  exact ⟨getLsbD_raiseScale (scl_lt b) (by decide) (.inr (by decide)),
    getLsbD_raiseScale (scl_lt a) (by decide) (.inr (by decide))⟩

theorem normCompletes_comm {a b : Value} : NormCompletes a b ↔ NormCompletes b a := by
  rw [NormCompletes, NormCompletes, ← normalize_swap a b]
  exact eq_comm

section
variable {a b : Value} (h : NormCompletes a b)
include h

theorem abs_value_of_normCompletes :
    |value a| = mant (normalize a b).1 / (10 : ℚ) ^ scl (normalize a b).1 ∧
      |value b| = mant (normalize a b).2 / (10 : ℚ) ^ scl (normalize a b).1 := by
  obtain ⟨ha, hb⟩ := value_normalize a b
  rw [NormCompletes] at h
  rw [← ha, ← hb, abs_value, abs_value, h]
  exact ⟨rfl, rfl⟩

theorem value_of_normCompletes :
    value a = (if sgn a then -1 else 1) * (mant (normalize a b).1 : ℚ) / 10 ^ scl (normalize a b).1 ∧
      value b = (if sgn b then -1 else 1) * (mant (normalize a b).2 : ℚ) / 10 ^ scl (normalize a b).1 := by
  obtain ⟨ha, hb⟩ := value_normalize a b
  obtain ⟨hsa, hsb⟩ := sgn_normalize a b
  rw [NormCompletes] at h
  rw [← ha, ← hb, value, value, hsa, hsb, h]
  exact ⟨rfl, rfl⟩

/-- R122: dividing by the common power of ten keeps the order. -/
theorem cmpabs_eq_cmp_abs_value : cmpabs a b = cmp |value a| |value b| := by
  obtain ⟨ha, hb⟩ := abs_value_of_normCompletes h
  have hmono : StrictMono fun m : Nat => (m : ℚ) / 10 ^ scl (normalize a b).1 :=
    fun m n hlt => div_lt_div_of_pos_right (Nat.cast_lt.mpr hlt) (by positivity)
  rw [cmpabs_eq_mcmp, mcmp_eq_cmp, ha, hb]
  exact (hmono.cmp_map_eq _ _).symm

end

/-- R123: the order of the values, where normalisation completes or a zero or the signs decide. -/
theorem scmp_eq_cmp_value {a b : Value}
    (h : NormCompletes a b ∨ mant a = 0 ∨ mant b = 0 ∨ sgn a ≠ sgn b) : scmp a b = cmp (value a) (value b) := by
  by_cases ha : mant a = 0
  · rw [(value_eq_zero_iff a).mpr ha]
    by_cases hb : mant b = 0
    · rw [scmp_of_zeros ha hb, (value_eq_zero_iff b).mpr hb, cmp_self_eq_eq]
    · rw [scmp_of_left_zero ha hb]
      cases hsgn : sgn b
      · exact (cmp_eq_lt_iff _ _).mpr (value_pos hb hsgn) |>.symm
      · exact (cmp_eq_gt_iff _ _).mpr (value_neg hb hsgn) |>.symm
  by_cases hb : mant b = 0
  · rw [scmp_of_right_zero ha hb, (value_eq_zero_iff b).mpr hb]
    cases hsgn : sgn a
    · exact (cmp_eq_gt_iff _ _).mpr (value_pos ha hsgn) |>.symm
    · exact (cmp_eq_lt_iff _ _).mpr (value_neg ha hsgn) |>.symm
  by_cases hsgn : sgn a = sgn b
  · have hcomplete : NormCompletes a b := by tauto
    rw [scmp_of_sgn_eq ha hb hsgn, cmpabs_eq_cmp_abs_value hcomplete]
    conv_rhs => rw [value_eq_signed_abs a, value_eq_signed_abs b, ← hsgn]
    cases sgn a
    · rfl
    · exact (cmp_swap _ _).trans (strictMono_id.neg.cmp_map_eq |value a| |value b|).symm
  · rw [scmp_of_sgn_ne ha hb hsgn]
    cases hsa : sgn a
    · have hsb : sgn b = true := by simpa [hsa] using Ne.symm hsgn
      exact (cmp_eq_gt_iff _ _).mpr ((value_neg hb hsb).trans (value_pos ha hsa)) |>.symm
    · have hsb : sgn b = false := by simpa [hsa] using Ne.symm hsgn
      exact (cmp_eq_lt_iff _ _).mpr ((value_neg ha hsa).trans (value_pos hb hsb)) |>.symm

theorem compareCode_cmp (p q : ℚ) :
    compareCode (cmp p q) = if p < q then 0xFFFFFFFF#128 else if p = q then 0 else 1 := by
  obtain hlt | heq | hgt := lt_trichotomy p q
  · rw [(cmp_eq_lt_iff p q).mpr hlt, if_pos hlt]
    rfl
  · rw [(cmp_eq_eq_iff p q).mpr heq, if_neg heq.not_lt, if_pos heq]
    rfl
  · rw [(cmp_eq_gt_iff p q).mpr hgt, if_neg hgt.not_gt, if_neg hgt.ne']
    rfl

/-! ### Adding (R140 to R142) -/

section
variable {a b : Value} (h : NormCompletes a b)
  (hfits : sgn a = sgn b → mant (normalize a b).1 + mant (normalize a b).2 < 2 ^ 96)
include h hfits

/-- R140: the signed sum of the mantissas over the common power of ten is the sum of the values. -/
theorem exists_smadd_value : ∃ r, smadd a b = some r ∧ value r = value a + value b := by
  obtain ⟨ha, hb⟩ := value_of_normCompletes h
  have hscl := scl_lt (normalize a b).1
  have hfst := mant_lt (normalize a b).1
  have hsnd := mant_lt (normalize a b).2
  by_cases hsgn : sgn a = sgn b
  · refine ⟨_, smadd_of_fits hsgn (hfits hsgn), ?_⟩
    rw [value_pack _ hscl (hfits hsgn), ha, hb, hsgn, Nat.cast_add]
    ring
  have hflip : (if sgn b then -1 else 1 : ℚ) = -(if sgn a then -1 else 1) := by
    rw [show sgn b = !sgn a by rw [Bool.eq_not]; exact Ne.symm hsgn]
    cases sgn a <;> simp
  obtain hlt | heq | hgt := Nat.lt_trichotomy (mant (normalize a b).1) (mant (normalize a b).2)
  · refine ⟨_, smadd_of_lt hsgn hlt, ?_⟩
    rw [value_pack _ hscl (by omega), ha, hb, hflip, Nat.cast_sub hlt.le]
    ring
  · refine ⟨_, smadd_of_eq hsgn heq, ?_⟩
    rw [value_pack _ hscl (by decide), ha, hb, hflip, heq]
    simp
    ring
  · refine ⟨_, smadd_of_gt hsgn hgt, ?_⟩
    rw [value_pack _ hscl (by omega), ha, hb, hflip, Nat.cast_sub hgt.le]
    ring

/-- R141: the pass-throughs give the sum too. -/
theorem exists_addCore_value :
    ∃ r, (∀ s, addCore a b s = finish .ok r 0 s) ∧ value r = value a + value b := by
  by_cases ha : mant a = 0
  · exact ⟨b, fun s => addCore_of_left_zero s ha, by rw [(value_eq_zero_iff a).mpr ha, zero_add]⟩
  by_cases hb : mant b = 0
  · exact ⟨a, fun s => addCore_of_right_zero s ha hb, by rw [(value_eq_zero_iff b).mpr hb, add_zero]⟩
  obtain ⟨r, hsum, hvalue⟩ := exists_smadd_value h hfits
  exact ⟨r, fun s => by rw [addCore_of_ne_zero s ha hb, hsum, finishSum], hvalue⟩

end

theorem scl_raiseScaleBy_congr (k : Nat) {v w : Value} (hmant : mant v = mant w) (hscl : scl v = scl w) :
    scl (raiseScaleBy k v) = scl (raiseScaleBy k w) := by
  induction k generalizing v w with
  | zero => exact hscl
  | succ k ih =>
    obtain hfits | hover := Nat.lt_or_ge (mant w * 10) (2 ^ 96)
    · rw [raiseScaleBy_succ_of_fits k hfits, raiseScaleBy_succ_of_fits k (hmant ▸ hfits)]
      exact ih (by simp [hmant]) (by simp [hscl])
    · rw [raiseScaleBy_of_overflow _ hover, raiseScaleBy_of_overflow _ (hmant ▸ hover), hscl]

/-- The sign of B takes no part in normalisation. -/
theorem normCompletes_flipSign {a b : Value} : NormCompletes a (flipSign b) ↔ NormCompletes a b := by
  have hscl (t : Nat) : scl (raiseScale (flipSign b) t) = scl (raiseScale b t) := by
    rw [raiseScale, scl_flipSign]
    exact scl_raiseScaleBy_congr _ (mant_flipSign b) (scl_flipSign b)
  rw [NormCompletes, NormCompletes, normalize_eq_raiseScale, normalize_eq_raiseScale, scl_flipSign, hscl]

/-- R142: SUB's own part gives the difference. -/
theorem exists_subCore_value {a b : Value} (h : NormCompletes a b)
    (hfits : sgn a ≠ sgn b → mant (normalize a b).1 + mant (normalize a b).2 < 2 ^ 96) :
    ∃ r, (∀ s, addCore a (flipSign b) s = finish .ok r 0 s) ∧ value r = value a - value b := by
  obtain ⟨hfst, hsnd⟩ := mant_normalize_flipSign a b
  obtain ⟨r, hcore, hvalue⟩ := exists_addCore_value (normCompletes_flipSign.mpr h) fun hsgn => by
    rw [hfst, hsnd]
    exact hfits (by rw [hsgn, sgn_flipSign]; exact Bool.not_ne_self _)
  exact ⟨r, hcore, by rw [hvalue, value_flipSign, sub_eq_add_neg]⟩

section
variable {s : State} {r : Value} (ha : canon s.latch.a = true) (hb : canon s.latch.b = true)
include ha hb

theorem add_answersOk_of_addCore (h : addCore s.latch.a s.latch.b s = finish .ok r 0 s) :
    AnswersOk (.add false) s r 0 := by
  rw [AnswersOk, add_of_canon ha hb, h]
  rfl

theorem sub_answersOk_of_addCore (h : addCore s.latch.a (flipSign s.latch.b) s = finish .ok r 0 s) :
    AnswersOk (.sub false) s r 0 := by
  rw [AnswersOk, sub_of_canon ha hb, h]
  rfl

end

end Sys2Proof.Machine

namespace Sys2Proof.Proofs

open Sys2Proof.Machine Sys2Proof.Claims

/-- Settles O36: both comparisons are `cmp` on the rationals. -/
theorem compareIsExactWhenNormalisationCompletes : Obligations.CompareIsExactWhenNormalisationCompletes := by
  refine fun s ha hb => ⟨fun h => ?_, fun h => ?_⟩
  · have hanswer := cmp_answersOk ha hb
    rwa [scmp_eq_cmp_value h, compareCode_cmp] at hanswer
  · have hanswer := cmpabs_answersOk ha hb
    rwa [cmpabs_eq_cmp_abs_value h, compareCode_cmp] at hanswer

/-- Settles O42: the own parts' sums and differences, as the commands' answers. -/
theorem addAndSubAreExact : Obligations.AddAndSubAreExact := by
  refine fun s ha hb h => ⟨fun hfits => ?_, fun hfits => ?_⟩
  · obtain ⟨r, hcore, hvalue⟩ := exists_addCore_value h hfits
    exact ⟨r, add_answersOk_of_addCore ha hb (hcore s), hvalue⟩
  · obtain ⟨r, hcore, hvalue⟩ := exists_subCore_value h hfits
    exact ⟨r, sub_answersOk_of_addCore ha hb (hcore s), hvalue⟩

end Sys2Proof.Proofs
end

section
/-! The laws of R148 and the division identity (R114): commutation of the signed sum, SUB against the other order, and
quotient and remainder as values. -/

namespace Sys2Proof.Machine

open Sys2Proof.Claims

/-! ### The other order -/

section
variable {a b : Value} (h : NormCompletes a b)
include h

/-- R148, law 2: the sum's cases mirror each other, and both working copies have the one scale. -/
theorem smadd_comm : smadd a b = smadd b a := by
  have hswap := normalize_swap a b
  rw [NormCompletes] at h
  by_cases hsgn : sgn a = sgn b
  · obtain hfits | hcarry := Nat.lt_or_ge (mant (normalize a b).1 + mant (normalize a b).2) (2 ^ 96)
    · rw [smadd_of_fits hsgn hfits, smadd_of_fits hsgn.symm (by rwa [← hswap, add_comm]), ← hswap, hsgn]
      simp [h, add_comm]
    · rw [smadd_of_carry hsgn hcarry, smadd_of_carry hsgn.symm (by rwa [← hswap, add_comm])]
  obtain hlt | heq | hgt := Nat.lt_trichotomy (mant (normalize a b).1) (mant (normalize a b).2)
  · rw [smadd_of_lt hsgn hlt, smadd_of_gt (Ne.symm hsgn) (by rwa [← hswap]), ← hswap]
    simp [h]
  · rw [smadd_of_eq hsgn heq, smadd_of_eq (Ne.symm hsgn) (by rw [← hswap]; exact heq.symm), ← hswap]
    simp [h]
  · rw [smadd_of_gt hsgn hgt, smadd_of_lt (Ne.symm hsgn) (by rwa [← hswap]), ← hswap]
    simp [h]

theorem addCore_comm (hne : ¬ (mant a = 0 ∧ mant b = 0)) (s : State) : addCore a b s = addCore b a s := by
  by_cases ha : mant a = 0
  · have hb : mant b ≠ 0 := fun hb => hne ⟨ha, hb⟩
    rw [addCore_of_left_zero s ha, addCore_of_right_zero s hb ha]
  by_cases hb : mant b = 0
  · rw [addCore_of_right_zero s ha hb, addCore_of_left_zero s hb]
  · rw [addCore_of_ne_zero s ha hb, addCore_of_ne_zero s hb ha, smadd_comm h]

end

theorem mant_normalize_add_comm (a b : Value) :
    mant (normalize b a).1 + mant (normalize b a).2 = mant (normalize a b).1 + mant (normalize a b).2 := by
  rw [← normalize_swap a b, Prod.fst_swap, Prod.snd_swap, add_comm]

/-! ### The division identity -/

/-- Dividing `m` by `n` over a common denominator, with the dividend's sign `p` and the product of the signs on the
quotient. -/
theorem signed_division {p q m n k r d : ℚ} (hq : q * q = 1) (hdiv : m = n * k + r) :
    p * m / d = q * n / d * (p * q * k) + p * r / d := by
  rw [hdiv]
  linear_combination (-(p * n * k / d)) * hq

/-- R145 on values: over the common power of ten, quotient and remainder of the mantissas are those of the values. -/
theorem division_identity {a b : Value} (h : NormCompletes a b) (hb : mant b ≠ 0) :
    let q := mant (normalize a b).1 / mant (normalize a b).2
    let m := mant (normalize a b).1 % mant (normalize a b).2
    value a = value b * value (pack (sgn a ^^ sgn b) 0 q) + value (pack (sgn a) (scl (normalize a b).1) m) ∧
      |value (pack (sgn a) (scl (normalize a b).1) m)| < |value b| := by
  obtain ⟨ha, hvb⟩ := value_of_normCompletes h
  have hscl := scl_lt (normalize a b).1
  have hrem := Nat.mod_lt (mant (normalize a b).1) (Nat.pos_of_ne_zero (mant_normalize_snd_ne_zero a hb))
  have hquot := (Nat.div_le_self (mant (normalize a b).1) (mant (normalize a b).2)).trans_lt (mant_lt _)
  have hremlt := hrem.trans (mant_lt _)
  refine ⟨?_, ?_⟩
  · rw [value_pack _ (by decide) hquot, value_pack _ hscl hremlt, ha, hvb, signFactor_xor, pow_zero, div_one]
    refine signed_division (by cases sgn b <;> simp) ?_
    exact_mod_cast (Nat.div_add_mod (mant (normalize a b).1) (mant (normalize a b).2)).symm
  · rw [abs_value_pack _ hscl hremlt, (abs_value_of_normCompletes h).2]
    exact div_lt_div_of_pos_right (Nat.cast_lt.mpr hrem) (by positivity)

end Sys2Proof.Machine

namespace Sys2Proof.Proofs

open Sys2Proof.Machine Sys2Proof.Claims

/-- Settles O45: DIV ends with OK on a zero dividend or on the quotient and remainder of `division_identity`. -/
theorem divisionIdentity : Obligations.DivisionIdentity := by
  intro s t ha hb h hexec hok
  obtain rfl : divCore s.latch.a s.latch.b s = t := by injection (div_of_canon ha hb).symm.trans hexec
  by_cases hzb : mant s.latch.b = 0
  · rw [divCore_of_zero_divisor s hzb] at hok
    cases hok
  by_cases hza : mant s.latch.a = 0
  · have hzero : value 0 = 0 := (value_eq_zero_iff 0).mpr rfl
    rw [divCore_of_zero_dividend s hzb hza, finish_r, finish_x, hzero, (value_eq_zero_iff _).mpr hza]
    exact ⟨by ring, by rw [abs_zero]; exact abs_value_pos hzb, rfl⟩
  rw [divCore_of_ne_zero s hzb hza] at hok ⊢
  split_ifs at hok ⊢ with hsmall
  · cases hok
  obtain ⟨hvalue, hrem⟩ := division_identity h hzb
  exact ⟨hvalue, hrem, scl_pack _ (by decide) ((Nat.div_le_self _ _).trans_lt (mant_lt _))⟩

/-- Settles O46: the pass-throughs, `addCore_comm`, the two differences as values, the zero tests of MUL and DIV, and
`add_flipSign_of_sub`. -/
theorem arithmeticLaws : Obligations.ArithmeticLaws := by
  refine ⟨fun s ha hb hza hzb => ⟨?_, ?_⟩, fun s ha hb h hne hfits => ?_, fun s ha hb h hfits => ?_,
    fun s ha hb => ⟨fun hzb => ?_, fun hza hzb => ?_, fun hzb => ?_⟩, fun s => ?_⟩
  · exact add_answersOk_of_addCore ha hb (addCore_of_right_zero s hza hzb)
  · exact sub_answersOk_of_addCore ha hb (addCore_of_right_zero s hza (by rwa [mant_flipSign]))
  · obtain ⟨r, hcore, -⟩ := exists_addCore_value h hfits
    exact ⟨r, add_answersOk_of_addCore ha hb (hcore s),
      add_answersOk_of_addCore hb ha ((addCore_comm h hne _).symm.trans (hcore _))⟩
  · obtain ⟨r, hcore, hvalue⟩ := exists_subCore_value h hfits
    obtain ⟨r', hcore', hvalue'⟩ := exists_subCore_value (normCompletes_comm.mp h) fun hsgn => by
      rw [mant_normalize_add_comm]
      exact hfits hsgn.symm
    refine ⟨r, r', flipSign r', sub_answersOk_of_addCore ha hb (hcore s), sub_answersOk_of_addCore hb ha (hcore' _),
      neg_answersOk _, ?_⟩
    rw [value_flipSign, hvalue, hvalue', neg_sub]
  · rw [AnswersOk, mul_of_canon ha hb, mulCore_of_zero s (.inr hzb)]
    rfl
  · rw [AnswersOk, div_of_canon ha hb, divCore_of_zero_dividend s hzb hza]
    rfl
  · exact ⟨_, div_of_canon ha hb, by rw [divCore_of_zero_divisor s hzb, finishUnspecR_st]⟩
  · exact ⟨flipSign s.latch.b, _, sgn_flipSign _, fun i hi => getLsbD_flipSign_of_lt _ hi, rfl, add_flipSign_of_sub rfl⟩

end Sys2Proof.Proofs
end

section
/-! The zero and query commands (R81, R82, R84, R91): the fields they report, as digits of A's number. -/

namespace Sys2Proof.Proofs

open Sys2Proof.Machine Sys2Proof.Claims

/-- Settles O22: each answer in X is the number of its field. -/
theorem zeroAndQueryCommands : Obligations.ZeroAndQueryCommands := by
  refine ⟨opcodeIs_of_decodeFields fun _ _ => rfl, opcodeIs_of_decodeFields fun _ _ => rfl,
    opcodeIs_of_decodeFields fun _ _ => rfl, opcodeIs_of_decodeFields fun _ _ => rfl, rfl,
    fun s => ⟨rfl, ⟨_, rfl, ?_⟩, ⟨_, rfl, ?_⟩, ⟨_, rfl, ?_⟩⟩⟩
  · rw [toNat_flagBit, sgn_toNat]
  · have hscl : reportedScale s.latch.a < 2 ^ 128 := by
      have := scl_lt s.latch.a
      rw [reportedScale]
      split_ifs <;> omega
    rw [toNat_zext hscl, reportedScale, scl_eq_div_mod]
    rfl
  · rw [toNat_flagBit, isZero, mant_eq_mod]
    cases h : s.latch.a.toNat % 2 ^ 96 <;> rfl

end Sys2Proof.Proofs
end
